-- ==== Sys2Proof/Word.lean ====
section
/-! DEFINITION. The words of the HK330: the bit vectors that cross its ports, and the plainest arithmetic over them. -/

namespace Sys2Proof

/-- One byte, as every port of the part carries it (R174, R87, and the sheet link's layout). -/
abbrev Byte := BitVec 8

/-- A two-byte number, most significant byte first on every port (R177). -/
abbrev Word16 := BitVec 16

/-- A four-byte number, most significant byte first on every port (R177). -/
abbrev Word32 := BitVec 32

/-- A store page, 0 to 4095 (R1). -/
abbrev Page := Fin 4096

end Sys2Proof
end

