-- ==== Sys2Proof/Config.lean ====
section
/-! DEFINITION. What the manual fixes for the whole part (sizes, limits, times), and the one free value. -/

namespace Sys2Proof

namespace Config

/-- Bytes in a store page (R1: a store page is 64 KiB). -/
def pageBytes : Nat := 65536

/-- Bytes in a migration burst, a scrub portion and the longest raster burst (R22, R25, R149). -/
def burstBytes : Nat := 4096

/-- Bursts in a migration and portions in a scrub step (R22, R25). -/
def burstsPerPage : Nat := 16

/-- Bytes in a card block (R13). -/
def blockBytes : Nat := 512

/-- Card blocks in a page (R42). -/
def blocksPerPage : Nat := 128

/-- The largest byte length of a frame (R9, R41). -/
def maxFrameBytes : Nat := 16777216

/-- Entries of the Frame Table (section 1.2). -/
def frameEntries : Nat := 1024

/-- Entries of the Order Table (section 3.1). -/
def orderEntries : Nat := 64

/-- Entries of the Tender Table (chapter 5). -/
def tenderEntries : Nat := 32

/-- The most lines one order holds (R57). -/
def linesPerOrder : Nat := 32

/-- The largest money amount, in units (Conventions). -/
def maxMoney : Nat := 999999

/-- Pages the Migration Queue holds (R20). -/
def migrationQueueLimit : Nat := 16

/-- Frames one Import Queue holds (R40). -/
def importQueueLimit : Nat := 16

/-- Where the migration starvation counter stops (R27). -/
def starvationLimit : Nat := 32

/-- Where a page's wear count saturates (R2). -/
def wearLimit : Nat := 15

/-- Where the one-byte counters saturate (section 4.1, R121, R122, R131). -/
def counterLimit : Nat := 255

/-- The step of the receipt code generator (R53). -/
def receiptStep : Nat := 7919

/-- How many receipt codes there are (R53). -/
def receiptCodes : Nat := 1000000

/-- The largest payload of a request or a response (R176, R183). -/
def maxPayload : Nat := 600

/-- Change flags one TAKE CHANGES reports (R181). -/
def flagsPerTake : Nat := 32

/-- Payload bytes of the longest SHEET DATA frame (section 6.1.1, R150). -/
def sheetDataBytes : Nat := 1022

/-- Characters the receive FIFO holds (R84). -/
def receiveFifoLimit : Nat := 16

/-- Messages the transmit queue holds (R85). -/
def transmitQueueLimit : Nat := 2

/-- The body length at which a message without an ETX is thrown away (R88). -/
def overlongBody : Nat := 19

/-- Frames the control queue holds (R119). -/
def controlQueueLimit : Nat := 3

/-- Frames the receive buffer of a sheet link holds (R121). -/
def receiveBufferLimit : Nat := 2

/-- Sheets in flight on one engine (R141, R147). -/
def sheetsInFlight : Nat := 2

/-- The top of the express run count (R144). -/
def expressRunLimit : Nat := 4

/-- The top of the admission counter (R66). -/
def admissionTop : Nat := 4294967295

/-- Where a sensor's age saturates, in ms (R163). -/
def ageLimit : Nat := 65535

/-- The debounce timer of a slot, in ms (R31). -/
def debounceMs : Nat := 50

/-- The response wait of a command exchange, in ms (R36). -/
def responseWaitMs : Nat := 100

/-- The block wait of a run, in ms (R37). -/
def blockWaitMs : Nat := 250

/-- The DSR filter timer, in ms (R80). -/
def dsrFilterMs : Nat := 10

/-- The CTS wait timer, in ms (R86). -/
def ctsWaitMs : Nat := 2000

/-- The presence filter of an engine, in ms (R123). -/
def presenceMs : Nat := 20

/-- The period of the HELLO timer, in ms (R124). -/
def helloMs : Nat := 500

/-- The silence timer, in ms (R126). -/
def silenceMs : Nat := 2000

/-- The acknowledgement polling window of SETTINGS WRITE, in ms (R171). -/
def ackWindowMs : Nat := 10

/-- Clocks of the management bus in a millisecond, at 100 kHz (section 8.1). -/
def busClocksPerMs : Nat := 100

/-- Attempts a block is allowed (R43), identify attempts a slot is allowed (R32), and failed imports that fault a slot (R44). -/
def attemptLimit : Nat := 3

/-- BUSY answers a card command token may meet before it fails (R36). -/
def cardBusyLimit : Nat := 10

/-- BUSY answers that decline a tender (R103). -/
def tenderBusyLimit : Nat := 5

/-- Enquiries that leave a tender unresolved (R100), and PENDING answers before the part withdraws (R109). -/
def enquiryLimit : Nat := 3

/-- FREE VALUE (log entries 7 and 42). Where the manual gives no order among several records, which one comes next is this constant
applied to a plain counter of State, and so is how far a store access has come when a pin reset ends it: it has no body, so no proof
can use a value it gives. -/
opaque freeChoice : Nat → Nat

end Config

end Sys2Proof
end

