-- ==== Sys2Proof/Syntax.lean ====
section
/-! DEFINITION. The commands of the block: one constructor of Instr for each row of spec/opcode_table.json.

A request of the Order Link carries its arguments as the request frame carries them (R177): raw one, two or four byte numbers,
so that an argument out of range reaches the owning rule, which answers it. An event of a port carries what crosses the port:
the bytes, the level, the result of the transfer. Slots, links, lines, engines, channels and sensors are wires of the part, so
their numbers are bounded by their type. -/

namespace Sys2Proof

/-- What one read of the store met on one page: how many 8-byte groups were correctable and how many uncorrectable (R20). -/
structure ReadErrors where
  correctable   : Nat
  uncorrectable : Nat
  deriving DecidableEq, Repr

/-- A read that met no error (R20). -/
def ReadErrors.none : ReadErrors := ⟨0, 0⟩

/-- The result of a management bus transfer (R159). -/
inductive BusResult where
  | done
  | noAck
  | stuck
  deriving DecidableEq, Repr

/-- The three STATE statuses that say no authorization stands (R108). -/
inductive NoMoney where
  | none
  | declined
  | voided
  deriving DecidableEq, Repr

/-- The commands of the HK330. Each constructor is one row of spec/opcode_table.json; the rule named is the row's own. -/
inductive Instr where
  -- start-up and reset
  /-- POWER_ON (R188). -/
  | powerOn
  /-- STORE_INIT_COMPLETE (R28). -/
  | storeInitComplete
  /-- PIN_RESET (R187): RESET_N is asserted. -/
  | pinReset
  /-- PIN_RESET_RELEASE (R187): RESET_N is released. -/
  | pinResetRelease
  -- the Order Link's port
  /-- REQUEST_FRAME_START (R175): the byte 0x5D. -/
  | requestFrameStart
  /-- REQUEST_FRAME (R176): the bytes after the mark, namely code, payload length, payload and CRC. -/
  | requestFrame (code : Byte) (length : Word16) (payload : List Byte) (crc : Word16)
  /-- OVERRUN_BYTE (R175): a byte other than 0xFF while a request is worked. -/
  | overrunByte (b : Byte)
  /-- CS_N_RISE (R176). -/
  | csNRise
  /-- CS_N_FALL (R178). -/
  | csNFall
  /-- FILLER_BYTE (R175): a byte without effect that shifts out the next byte on SDO. -/
  | fillerByte (b : Byte)
  -- the Order Link's own requests
  /-- IDENTIFY_PART (R183). -/
  | identifyPart
  /-- READ_CONDITIONS (R182). -/
  | readConditions (clearMask : Word16)
  /-- TAKE_CHANGES (R181). -/
  | takeChanges
  /-- SET_PARAMETER (R184). -/
  | setParameter (parameter : Byte) (value : Word32)
  /-- READ_PARAMETER (R184). -/
  | readParameter (parameter : Byte)
  /-- RESTART (R185). -/
  | restart
  -- frames and the image store
  /-- CREATE_FRAME (R9). -/
  | createFrame (byteLength : Word32)
  /-- WRITE_FRAME_DATA (R10). -/
  | writeFrameData (frame : Word16) (offset : Word32) (data : List Byte)
  /-- HOST_WRITE_COMPLETE (R10). -/
  | hostWriteComplete
  /-- SEAL_FRAME (R11). -/
  | sealFrame (frame : Word16)
  /-- SEAL_WRITE_COMPLETE (R11). -/
  | sealWriteComplete
  /-- READ_FRAME_DATA (R12). -/
  | readFrameData (frame : Word16) (offset : Word32) (count : Word16)
  /-- HOST_READ_COMPLETE (R12): what the read met on its first page and, where it crosses one, on the next. -/
  | hostReadComplete (first next : ReadErrors)
  /-- RELEASE_FRAME (R16). -/
  | releaseFrame (frame : Word16)
  /-- READ_FRAME (R18). -/
  | readFrame (frame : Word16)
  /-- READ_STORE (R19). -/
  | readStore
  /-- SCRUB_PAGE (R23). -/
  | scrubPage (page : Word16)
  /-- RESUME_SCRUB (R23). -/
  | resumeScrub
  /-- SCRUB_TIMER_EXPIRY (R22). -/
  | scrubTimerExpiry
  /-- SCRUB_PORTION_COMPLETE (R22). -/
  | scrubPortionComplete (errors : ReadErrors)
  /-- MIGRATION_BURST_COMPLETE (R25). -/
  | migrationBurstComplete (errors : ReadErrors)
  /-- FRAME_DAMAGE_NOTICE (R70). -/
  | frameDamageNotice (frame : Fin 1024)
  -- card slots and import
  /-- DETECT_ACTIVE (R31). -/
  | detectActive (slot : Fin 8)
  /-- DETECT_RELEASE_SETTLING (R31). -/
  | detectReleaseSettling (slot : Fin 8)
  /-- DEBOUNCE_EXPIRY (R31). -/
  | debounceExpiry (slot : Fin 8)
  /-- CARD_REMOVAL (R33). -/
  | cardRemoval (slot : Fin 8)
  /-- RESET_SLOT (R34). -/
  | resetSlot (slot : Byte)
  /-- READ_SLOT (R35). -/
  | readSlot (slot : Byte)
  /-- IMPORT_FRAME (R41). -/
  | importFrame (slot session : Byte) (startBlock byteLength : Word32)
  /-- CANCEL_IMPORT (R46). -/
  | cancelImport (frame : Word16)
  /-- LINK_GRANT (R39). -/
  | linkGrant (link : Fin 4)
  /-- RESPONSE_TOKEN (R36): the bytes of the token. -/
  | responseToken (link : Fin 4) (token : List Byte)
  /-- RESPONSE_WAIT_EXPIRY (R36). -/
  | responseWaitExpiry (link : Fin 4)
  /-- BLOCK_PACKET (R37): the first byte other than 0xFF, the 512 bytes of the block, and its CRC. -/
  | blockPacket (link : Fin 4) (start : Byte) (data : List Byte) (crc : Word16)
  /-- BLOCK_WAIT_EXPIRY (R37). -/
  | blockWaitExpiry (link : Fin 4)
  /-- BLOCK_WRITE_COMPLETE (R13). -/
  | blockWriteComplete (link : Fin 4)
  -- the order book
  /-- OPEN_ORDER (R56). -/
  | openOrder (station priority : Byte)
  /-- ADD_LINE (R57). -/
  | addLine (order : Byte) (frame : Word16) (product quantity fit : Byte)
  /-- CHANGE_LINE (R58). -/
  | changeLine (order line : Byte) (frame : Word16) (product quantity fit : Byte)
  /-- REMOVE_LINE (R59). -/
  | removeLine (order line : Byte)
  /-- LOCK_ORDER (R62). -/
  | lockOrder (order : Byte)
  /-- CANCEL_ORDER (R65). -/
  | cancelOrder (order : Byte)
  /-- SET_PRIORITY (R61). -/
  | setPriority (order priority : Byte)
  /-- READ_ORDER (R73). -/
  | readOrder (order : Byte)
  /-- FIND_ORDER (R54). -/
  | findOrder (code : Word32)
  /-- RETIRE_ORDER (R72). -/
  | retireOrder (order : Byte)
  /-- SET_PRICE (R55). -/
  | setPrice (product enabled media : Byte) (price : Word16)
  /-- READ_PRICES (R55). -/
  | readPrices
  /-- IDLE_DEADLINE_EXPIRY (R60). -/
  | idleDeadlineExpiry (order : Fin 64)
  -- payment lines
  /-- SET_LINE (R78). -/
  | setLine (line : Byte) (rate : Word32) (dataBits parity stopBits enable : Byte)
  /-- READ_LINE (R91). -/
  | readLine (line clear : Byte)
  /-- DSR_CHANGE (R80): the level the DSR input takes. -/
  | dsrChange (line : Fin 4) (active : Bool)
  /-- DSR_FILTER_EXPIRY (R80). -/
  | dsrFilterExpiry (line : Fin 4)
  /-- BREAK_DETECTED (R81). -/
  | breakDetected (line : Fin 4)
  /-- BREAK_END (R81). -/
  | breakEnd (line : Fin 4)
  /-- RX_CHARACTER (R83): the data bits, the parity bit and the first stop bit as they were sampled. -/
  | rxCharacter (line : Fin 4) (value : Byte) (parityBit stopBit : Bool)
  /-- ASSEMBLE_CHARACTER (R88). -/
  | assembleCharacter (line : Fin 4)
  /-- CTS_CHANGE (R85): the level the CTS input takes. -/
  | ctsChange (line : Fin 4) (active : Bool)
  /-- TX_CHARACTER_END (R85). -/
  | txCharacterEnd (line : Fin 4)
  /-- CTS_WAIT_EXPIRY (R86). -/
  | ctsWaitExpiry (line : Fin 4)
  -- tenders
  /-- REPLY_DEADLINE_EXPIRY (R100). -/
  | replyDeadlineExpiry (tender : Fin 32)
  /-- APPROVED (R101): the message the line has handed off, with its amount and reference. -/
  | approved (line : Fin 4) (tender : Fin 32) (amount : Nat) (reference : List Byte)
  /-- DECLINED (R102). -/
  | declined (line : Fin 4) (tender : Fin 32) (reason : Nat)
  /-- CANCELLED (R102). -/
  | cancelled (line : Fin 4) (tender : Fin 32)
  /-- WITHDRAWN (R105). -/
  | withdrawn (line : Fin 4) (tender : Fin 32)
  /-- CAPTURED (R107). -/
  | captured (line : Fin 4) (tender : Fin 32) (amount : Nat)
  /-- VOIDED (R107). -/
  | voided (line : Fin 4) (tender : Fin 32)
  /-- BUSY (R103). -/
  | busy (line : Fin 4) (tender : Fin 32)
  /-- STATE_NONE_DECLINED_VOIDED (R108). -/
  | stateNoneDeclinedVoided (line : Fin 4) (tender : Fin 32) (status : NoMoney)
  /-- STATE_PENDING (R109). -/
  | statePending (line : Fin 4) (tender : Fin 32)
  /-- STATE_APPROVED (R110). -/
  | stateApproved (line : Fin 4) (tender : Fin 32) (amount : Nat) (reference : List Byte)
  /-- STATE_CAPTURED (R111). -/
  | stateCaptured (line : Fin 4) (tender : Fin 32) (amount : Nat)
  /-- ENQUIRE_TENDER (R114). -/
  | enquireTender (tender : Byte)
  /-- WRITE_OFF_ORDER (R115). -/
  | writeOffOrder (order : Byte)
  /-- READ_TENDER (R116). -/
  | readTender (tender : Byte)
  -- print engines and the sheet link
  /-- PRESENCE_CHANGE (R123): the level PRES_N takes, true for active. -/
  | presenceChange (engine : Fin 3) (active : Bool)
  /-- PRESENCE_FILTER_EXPIRY (R123). -/
  | presenceFilterExpiry (engine : Fin 3)
  /-- HELLO_TIMER_EXPIRY (R124). -/
  | helloTimerExpiry (engine : Fin 3)
  /-- TX_FRAME_BOUNDARY (R119). -/
  | txFrameBoundary (engine : Fin 3)
  /-- RX_FRAME_COMPLETE (R120): the kind byte and the payload of a frame whose CRC matched. -/
  | rxFrameComplete (engine : Fin 3) (kind : Byte) (payload : List Byte)
  /-- RECEIVE_FAULT (R121). -/
  | receiveFault (engine : Fin 3)
  /-- MARK_PAIR_FOUND (R120). -/
  | markPairFound (engine : Fin 3)
  /-- FRAME_TAKEN (R122). -/
  | frameTaken (engine : Fin 3)
  /-- READY (R124): the fields of the frame (section 6.1.1). -/
  | ready (engine : Fin 3) (media : Byte) (sheets lastTag : Word16) (bufferFree : Byte)
  /-- STATUS (R130): the fields of the frame (section 6.1.1). -/
  | status (engine : Fin 3) (media : Byte) (sheets lastTag : Word16) (bufferFree head : Byte)
  /-- SHEET_DONE (R131). -/
  | sheetDone (engine : Fin 3) (tag : Word16)
  /-- SHEET_FAULT (R131). -/
  | sheetFault (engine : Fin 3) (tag : Word16) (cause : Byte)
  /-- SILENCE_TIMER_EXPIRY (R126). -/
  | silenceTimerExpiry (engine : Fin 3)
  /-- RELINK_TIMER_EXPIRY (R128). -/
  | relinkTimerExpiry (engine : Fin 3)
  /-- SET_ENGINE (R134). -/
  | setEngine (engine enabled mask : Byte)
  /-- READ_ENGINE (R135). -/
  | readEngine (engine clear : Byte)
  -- sheet dispatch
  /-- HOLD_ENGINE (R142). -/
  | holdEngine (engine : Byte)
  /-- RELEASE_ENGINE (R142). -/
  | releaseEngine (engine : Byte)
  /-- RASTER_BURST_COMPLETE (R149). -/
  | rasterBurstComplete (channel : Fin 3) (errors : ReadErrors)
  -- thermal watch and the management bus
  /-- POLL_TIMER_EXPIRY (R162). -/
  | pollTimerExpiry
  /-- POLL_TRANSFER_END (R162): the result, and the two bytes read where it is DONE. -/
  | pollTransferEnd (result : BusResult) (whole fraction : Byte)
  /-- STALE_LIMIT_PASSED (R163). -/
  | staleLimitPassed (sensor : Fin 4)
  /-- READ_SENSORS (R169). -/
  | readSensors
  /-- CLEAR_BUS_ERROR (R164). -/
  | clearBusError
  /-- RECOVER_BUS (R160). -/
  | recoverBus
  /-- RECOVER_BUS_END (R160): the level of SDA after the recovery. -/
  | recoverBusEnd (sdaHigh : Bool)
  /-- SETTINGS_READ (R170). -/
  | settingsRead (address count : Word16)
  /-- SETTINGS_READ_END (R170): the result, and the bytes read where it is DONE. -/
  | settingsReadEnd (result : BusResult) (data : List Byte)
  /-- SETTINGS_WRITE (R171). -/
  | settingsWrite (address : Word16) (data : List Byte)
  /-- SETTINGS_WRITE_END (R171). -/
  | settingsWriteEnd (result : BusResult)
  /-- ACK_POLL_WINDOW_EXPIRY (R171). -/
  | ackPollWindowExpiry
  -- configuration load
  /-- OPTION_READ_END (R189): the result, and the option byte where it is DONE. -/
  | optionReadEnd (result : BusResult) (option : Byte)
  /-- IMAGE_READ_END (R190): the result, and the bytes from 0x001 on where it is DONE. -/
  | imageReadEnd (result : BusResult) (data : List Byte)
  deriving DecidableEq, Repr

end Sys2Proof
end

