-- ==== Sys2Proof/Decode.lean ====
section
/-! DEFINITION. Reading commands from bits. The opcode table gives no row any bits, so decodeTableWord reads none. What the
manual does lay out in bytes is the request frame: the request code table (section 9.2) and the order of the arguments (R177).
Its decoder and encoder stand here. -/

namespace Sys2Proof

/-- The command that a word spells by the table's bits: no row of spec/opcode_table.json has bits. -/
def decodeTableWord (_nbits _w : Nat) : Option Instr := none

/-! ### Words as bytes, most significant byte first (R177) -/

/-- Two bytes read as a word. -/
def toWord16 (a b : Byte) : Word16 := a ++ b

/-- Four bytes read as a word. -/
def toWord32 (a b c d : Byte) : Word32 := (a ++ b) ++ (c ++ d)

/-- The two bytes of a word. -/
def ofWord16 (w : Word16) : List Byte := [w.extractLsb' 8 8, w.extractLsb' 0 8]

/-- The four bytes of a word. -/
def ofWord32 (w : Word32) : List Byte :=
  [w.extractLsb' 24 8, w.extractLsb' 16 8, w.extractLsb' 8 8, w.extractLsb' 0 8]

/-! ### The request code table (section 9.2) -/

/-- The range of payload lengths of a request code; none for a code that is not assigned. -/
def requestLengths (code : Byte) : Option (Nat × Nat) :=
  match code.toNat with
  | 0x01 => some (0, 0)
  | 0x02 => some (2, 2)
  | 0x03 => some (0, 0)
  | 0x04 => some (5, 5)
  | 0x05 => some (1, 1)
  | 0x06 => some (0, 0)
  | 0x10 => some (4, 4)
  | 0x11 => some (7, 518)
  | 0x12 => some (2, 2)
  | 0x13 => some (8, 8)
  | 0x14 => some (2, 2)
  | 0x15 => some (2, 2)
  | 0x16 => some (0, 0)
  | 0x17 => some (2, 2)
  | 0x18 => some (0, 0)
  | 0x20 => some (10, 10)
  | 0x21 => some (2, 2)
  | 0x22 => some (1, 1)
  | 0x23 => some (1, 1)
  | 0x30 => some (2, 2)
  | 0x31 => some (6, 6)
  | 0x32 => some (7, 7)
  | 0x33 => some (2, 2)
  | 0x34 => some (1, 1)
  | 0x35 => some (1, 1)
  | 0x36 => some (2, 2)
  | 0x37 => some (1, 1)
  | 0x38 => some (4, 4)
  | 0x39 => some (1, 1)
  | 0x3A => some (5, 5)
  | 0x3B => some (0, 0)
  | 0x40 => some (9, 9)
  | 0x41 => some (2, 2)
  | 0x50 => some (1, 1)
  | 0x51 => some (1, 1)
  | 0x52 => some (1, 1)
  | 0x60 => some (3, 3)
  | 0x61 => some (2, 2)
  | 0x62 => some (1, 1)
  | 0x63 => some (1, 1)
  | 0x70 => some (0, 0)
  | 0x71 => some (0, 0)
  | 0x72 => some (0, 0)
  | 0x73 => some (4, 4)
  | 0x74 => some (3, 18)
  | _ => none

/-- The request command of a code and a payload whose length suits it. -/
def decodeRequest (code : Byte) (payload : List Byte) : Option Instr :=
  match code.toNat, payload with
  | 0x01, [] => some .identifyPart
  | 0x02, [a, b] => some (.readConditions (toWord16 a b))
  | 0x03, [] => some .takeChanges
  | 0x04, [p, a, b, c, d] => some (.setParameter p (toWord32 a b c d))
  | 0x05, [p] => some (.readParameter p)
  | 0x06, [] => some .restart
  | 0x10, [a, b, c, d] => some (.createFrame (toWord32 a b c d))
  | 0x11, f0 :: f1 :: a :: b :: c :: d :: data =>
    if 1 ≤ data.length ∧ data.length ≤ 512 then some (.writeFrameData (toWord16 f0 f1) (toWord32 a b c d) data) else none
  | 0x12, [f0, f1] => some (.sealFrame (toWord16 f0 f1))
  | 0x13, [f0, f1, a, b, c, d, n0, n1] => some (.readFrameData (toWord16 f0 f1) (toWord32 a b c d) (toWord16 n0 n1))
  | 0x14, [f0, f1] => some (.releaseFrame (toWord16 f0 f1))
  | 0x15, [f0, f1] => some (.readFrame (toWord16 f0 f1))
  | 0x16, [] => some .readStore
  | 0x17, [p0, p1] => some (.scrubPage (toWord16 p0 p1))
  | 0x18, [] => some .resumeScrub
  | 0x20, [slot, session, a, b, c, d, e, f, g, h] =>
    some (.importFrame slot session (toWord32 a b c d) (toWord32 e f g h))
  | 0x21, [f0, f1] => some (.cancelImport (toWord16 f0 f1))
  | 0x22, [slot] => some (.readSlot slot)
  | 0x23, [slot] => some (.resetSlot slot)
  | 0x30, [station, priority] => some (.openOrder station priority)
  | 0x31, [order, f0, f1, product, quantity, fit] => some (.addLine order (toWord16 f0 f1) product quantity fit)
  | 0x32, [order, line, f0, f1, product, quantity, fit] =>
    some (.changeLine order line (toWord16 f0 f1) product quantity fit)
  | 0x33, [order, line] => some (.removeLine order line)
  | 0x34, [order] => some (.lockOrder order)
  | 0x35, [order] => some (.cancelOrder order)
  | 0x36, [order, priority] => some (.setPriority order priority)
  | 0x37, [order] => some (.readOrder order)
  | 0x38, [a, b, c, d] => some (.findOrder (toWord32 a b c d))
  | 0x39, [order] => some (.retireOrder order)
  | 0x3A, [product, enabled, media, p0, p1] => some (.setPrice product enabled media (toWord16 p0 p1))
  | 0x3B, [] => some .readPrices
  | 0x40, [line, a, b, c, d, dataBits, parity, stopBits, enable] =>
    some (.setLine line (toWord32 a b c d) dataBits parity stopBits enable)
  | 0x41, [line, clear] => some (.readLine line clear)
  | 0x50, [tender] => some (.readTender tender)
  | 0x51, [tender] => some (.enquireTender tender)
  | 0x52, [order] => some (.writeOffOrder order)
  | 0x60, [engine, enabled, mask] => some (.setEngine engine enabled mask)
  | 0x61, [engine, clear] => some (.readEngine engine clear)
  | 0x62, [engine] => some (.holdEngine engine)
  | 0x63, [engine] => some (.releaseEngine engine)
  | 0x70, [] => some .readSensors
  | 0x71, [] => some .clearBusError
  | 0x72, [] => some .recoverBus
  | 0x73, [a0, a1, n0, n1] => some (.settingsRead (toWord16 a0 a1) (toWord16 n0 n1))
  | 0x74, a0 :: a1 :: data =>
    if 1 ≤ data.length ∧ data.length ≤ 16 then some (.settingsWrite (toWord16 a0 a1) data) else none
  | _, _ => none

/-- The code and the payload of a request command's frame; none for a command that is no request. -/
def encodeRequest : Instr → Option (Byte × List Byte)
  | .identifyPart => some (0x01, [])
  | .readConditions mask => some (0x02, ofWord16 mask)
  | .takeChanges => some (0x03, [])
  | .setParameter p v => some (0x04, p :: ofWord32 v)
  | .readParameter p => some (0x05, [p])
  | .restart => some (0x06, [])
  | .createFrame n => some (0x10, ofWord32 n)
  | .writeFrameData f o data => some (0x11, ofWord16 f ++ ofWord32 o ++ data)
  | .sealFrame f => some (0x12, ofWord16 f)
  | .readFrameData f o n => some (0x13, ofWord16 f ++ ofWord32 o ++ ofWord16 n)
  | .releaseFrame f => some (0x14, ofWord16 f)
  | .readFrame f => some (0x15, ofWord16 f)
  | .readStore => some (0x16, [])
  | .scrubPage p => some (0x17, ofWord16 p)
  | .resumeScrub => some (0x18, [])
  | .importFrame slot session start n => some (0x20, slot :: session :: (ofWord32 start ++ ofWord32 n))
  | .cancelImport f => some (0x21, ofWord16 f)
  | .readSlot slot => some (0x22, [slot])
  | .resetSlot slot => some (0x23, [slot])
  | .openOrder station priority => some (0x30, [station, priority])
  | .addLine order f product quantity fit => some (0x31, order :: (ofWord16 f ++ [product, quantity, fit]))
  | .changeLine order line f product quantity fit => some (0x32, order :: line :: (ofWord16 f ++ [product, quantity, fit]))
  | .removeLine order line => some (0x33, [order, line])
  | .lockOrder order => some (0x34, [order])
  | .cancelOrder order => some (0x35, [order])
  | .setPriority order priority => some (0x36, [order, priority])
  | .readOrder order => some (0x37, [order])
  | .findOrder code => some (0x38, ofWord32 code)
  | .retireOrder order => some (0x39, [order])
  | .setPrice product enabled media price => some (0x3A, product :: enabled :: media :: ofWord16 price)
  | .readPrices => some (0x3B, [])
  | .setLine line rate dataBits parity stopBits enable =>
    some (0x40, line :: (ofWord32 rate ++ [dataBits, parity, stopBits, enable]))
  | .readLine line clear => some (0x41, [line, clear])
  | .readTender tender => some (0x50, [tender])
  | .enquireTender tender => some (0x51, [tender])
  | .writeOffOrder order => some (0x52, [order])
  | .setEngine engine enabled mask => some (0x60, [engine, enabled, mask])
  | .readEngine engine clear => some (0x61, [engine, clear])
  | .holdEngine engine => some (0x62, [engine])
  | .releaseEngine engine => some (0x63, [engine])
  | .readSensors => some (0x70, [])
  | .clearBusError => some (0x71, [])
  | .recoverBus => some (0x72, [])
  | .settingsRead address count => some (0x73, ofWord16 address ++ ofWord16 count)
  | .settingsWrite address data => some (0x74, ofWord16 address ++ data)
  | .powerOn | .storeInitComplete | .pinReset | .pinResetRelease | .requestFrameStart | .requestFrame _ _ _ _
  | .overrunByte _ | .csNRise | .csNFall | .fillerByte _ | .hostWriteComplete | .sealWriteComplete | .hostReadComplete _ _
  | .scrubTimerExpiry | .scrubPortionComplete _ | .migrationBurstComplete _ | .frameDamageNotice _ | .detectActive _
  | .detectReleaseSettling _ | .debounceExpiry _ | .cardRemoval _ | .linkGrant _ | .responseToken _ _ | .responseWaitExpiry _
  | .blockPacket _ _ _ _ | .blockWaitExpiry _ | .blockWriteComplete _ | .idleDeadlineExpiry _ | .dsrChange _ _
  | .dsrFilterExpiry _ | .breakDetected _ | .breakEnd _ | .rxCharacter _ _ _ _ | .assembleCharacter _ | .ctsChange _ _
  | .txCharacterEnd _ | .ctsWaitExpiry _ | .replyDeadlineExpiry _ | .approved _ _ _ _ | .declined _ _ _ | .cancelled _ _
  | .withdrawn _ _ | .captured _ _ _ | .voided _ _ | .busy _ _ | .stateNoneDeclinedVoided _ _ _ | .statePending _ _
  | .stateApproved _ _ _ _ | .stateCaptured _ _ _ | .presenceChange _ _ | .presenceFilterExpiry _ | .helloTimerExpiry _
  | .txFrameBoundary _ | .rxFrameComplete _ _ _ | .receiveFault _ | .markPairFound _ | .frameTaken _ | .ready _ _ _ _ _
  | .status _ _ _ _ _ _ | .sheetDone _ _ | .sheetFault _ _ _ | .silenceTimerExpiry _ | .relinkTimerExpiry _
  | .rasterBurstComplete _ _ | .pollTimerExpiry | .pollTransferEnd _ _ _ | .staleLimitPassed _ | .recoverBusEnd _
  | .settingsReadEnd _ _ | .settingsWriteEnd _ | .ackPollWindowExpiry | .optionReadEnd _ _ | .imageReadEnd _ _ => none

/-- The payload length of a request command suits its code; only two carry data of varying length (section 9.2). -/
def Instr.lengthSuits : Instr → Bool
  | .writeFrameData _ _ data => decide (1 ≤ data.length) && decide (data.length ≤ 512)
  | .settingsWrite _ data => decide (1 ≤ data.length) && decide (data.length ≤ 16)
  | _ => true

end Sys2Proof
end

