-- ==== Sys2Proof/Machine/State.lean ====
section
/-! DEFINITION. The state of the HK330 as plain data: every record, collection, timer, flag and input level the manual gives the
part, block by block in the order of its chapters, the queue of commands that wait, and the machine right after power-on.

A timer is an Option Nat: none while it does not run, else the milliseconds that remain. Tables and the store are lists of
(number, entry) pairs in ascending number. Numbers of records are plain Nat keys; pages, slots, links, lines, engines and
sensors are bounded by their type. -/

namespace Sys2Proof.Machine

/-! ### Why a step can stop -/

/-- The faults of the part. There is none: every rule of the manual gives its step an effect, so no meaning stops. -/
inductive Fault
  deriving DecidableEq, Repr

/-- The refusals of the model. -/
inductive Refusal where
  /-- Raised by a refused arm of exec alone: a row of the table that has no meaning yet. Safe. -/
  | notModelled (mnemonic : String)
  deriving DecidableEq, Repr

/-! ### Chapter 1: frames and the image store -/

/-- The states of a frame, in the order of the frame table (section 1.2). -/
inductive FrameState where
  | waitingSpace
  | queued
  | filling
  | open
  | ready
  | damaged
  deriving DecidableEq, Repr

/-- The damage causes of a frame, in the order of the frame table (section 1.2). -/
inductive DamageCause where
  | removed
  | cardError
  | storeError
  | cancelled
  | reset
  deriving DecidableEq, Repr

/-- Where a frame's bytes come from (section 1.2). -/
inductive Origin where
  | card (slot : Fin 8) (session : Byte) (startBlock : Word32)
  | host
  deriving DecidableEq, Repr

/-- One entry of the Frame Table (section 1.2). Its number is its key in Store.frames. -/
structure Frame where
  state          : FrameState
  origin         : Origin
  byteLength     : Nat
  /-- Page numbers in extent order. -/
  extent         : List Page
  /-- Bytes written so far; absent for a card frame. -/
  fillMark       : Option Nat
  /-- The 0 to 7 bytes of an unfinished group; not reported. -/
  heldBytes      : List Byte
  references     : Nat
  pins           : Nat
  releasePending : Bool
  cause          : Option DamageCause
  /-- The retirement test has passed and a store access on one of the pages is awaited (R17 step 2; log entry 11). -/
  retiring       : Bool
  deriving DecidableEq, Repr

/-- The attributes that travel with a page (R2). -/
structure PageAttr where
  wear      : Nat
  condemned : Bool
  readers   : Nat
  deriving DecidableEq, Repr

/-- A page no error was found on and no channel reads (R2, at power-on). -/
def PageAttr.clean : PageAttr := ⟨0, false, 0⟩

/-- The migration in progress (section 1.5). -/
structure Migration where
  page   : Page
  target : Page
  frame  : Nat
  /-- Bursts completed, 0 to 16. -/
  bursts : Nat
  deriving DecidableEq, Repr

/-- The states of the patrol, in the order of R19. -/
inductive PatrolState where
  | running
  | stopped
  | idle
  deriving DecidableEq, Repr

/-- A scrub step in progress, of the patrol or of SCRUB PAGE (R22, R23). -/
structure ScrubStep where
  page          : Page
  /-- Portions completed, 0 to 16. -/
  portions      : Nat
  correctable   : Nat
  uncorrectable : Nat
  /-- The step is SCRUB PAGE's. -/
  host          : Bool
  /-- The page has left eligibility during the step, which ends at the next portion boundary even if it is eligible again by then
  (R22). -/
  left          : Bool
  /-- The step has found an uncorrectable group while stop-on-uncorrectable was set: the patrol stops when the step ends (R23, R29 step 6;
  log entry 47). -/
  stops         : Bool
  deriving DecidableEq, Repr

/-- One access to the DRAM through the store port (R27). -/
inductive Access where
  /-- A read burst of a raster channel: the page, the position in it and the length. -/
  | raster (channel : Fin 3) (page : Page) (position length : Nat)
  /-- One card block of a frame: the link, the frame, the frame block number, its 512 bytes, and whether the frame has left FILLING while
  the write waited, so that it is dropped at its grant (R13). -/
  | block (link : Fin 4) (frame index : Nat) (data : List Byte) (void : Bool)
  /-- WRITE FRAME DATA. -/
  | hostWrite (frame : Nat) (data : List Byte)
  /-- The held-byte write of SEAL FRAME. -/
  | hostSeal (frame : Nat)
  /-- READ FRAME DATA. -/
  | hostRead (frame offset count : Nat)
  /-- One migration burst: the old page, the target and the position. -/
  | migration (page target : Page) (position : Nat)
  /-- One scrub portion. -/
  | scrub (page : Page)
  deriving DecidableEq, Repr

/-- The store port and its arbiter (R27). -/
structure Port where
  /-- The access being carried out. -/
  busy       : Option Access
  /-- The accesses waiting, in the order they came. -/
  waiting    : List Access
  /-- The raster channel granted last. -/
  rasterLast : Fin 3
  /-- The card link granted last. -/
  linkLast   : Fin 4
  /-- The migration starvation counter, 0 to 32. -/
  starvation : Nat
  deriving DecidableEq, Repr

/-- The Image Store. -/
structure Store where
  /-- The DRAM: bytes by address, page p at 65536 p; an unlisted byte reads 0 (R28). -/
  mem            : List Host.Cell
  /-- The Frame Table. -/
  frames         : List (Nat × Frame)
  /-- Wear, condemned mark and reader count by page; an unlisted page is clean (R2). -/
  attrs          : List (Nat × PageAttr)
  /-- The Free Pool, head first (R3). -/
  freePool       : List Page
  /-- The Spare Reserve, ascending (R4). -/
  spares         : List Page
  /-- The Bad Set, ascending (R1). -/
  bad            : List Page
  /-- The Retiring Set, ascending (R1). -/
  retiringPages  : List Page
  /-- The Space Wait List, head first (R8). -/
  waitList       : List Nat
  /-- The Migration Queue, head first (R20). -/
  migrationQueue : List Page
  migration      : Option Migration
  /-- Frame damage notices sent to the Order Book and not yet taken, oldest first (R14, R70). -/
  notices        : List Nat
  scrubCursor    : Page
  passCount      : Word16
  patrol         : PatrolState
  scrubTimer     : Option Nat
  scrubStep      : Option ScrubStep
  /-- A SCRUB PAGE step that waits for the patrol step in progress (R23). -/
  scrubWaiting   : Option Page
  /-- The timer has expired during a SCRUB PAGE step, and the search is due when it ends (R22). -/
  searchDue      : Bool
  port           : Port
  deriving DecidableEq, Repr

/-! ### Chapter 2: card slots and import -/

/-- The states of a slot (section 2.1). -/
inductive SlotState where
  | empty
  | settling
  | identifying
  | ready
  | faulted
  deriving DecidableEq, Repr

/-- The kinds of failure of a card link attempt (section 2.1). -/
inductive LinkError where
  | responseTimeout
  | tokenCheck
  | busyLimit
  | refused
  | badCapacity
  | blockTimeout
  | blockCheck
  deriving DecidableEq, Repr

/-- The link phase of a FILLING head frame (R42). -/
inductive LinkPhase where
  | waitingLink
  | running
  | halting
  | draining
  deriving DecidableEq, Repr

/-- The progress of the FILLING head frame's import (R42). -/
structure Progress where
  /-- The next block to fetch, 0 to B. -/
  next     : Nat
  /-- Attempts on that block that have failed, 0 to 2. -/
  attempts : Nat
  phase    : LinkPhase
  /-- Blocks of the frame, B (R42). -/
  blocks   : Nat
  /-- Blocks whose store writes have completed. -/
  written  : Nat
  /-- A cancel is recorded against the import (R46). -/
  cancel   : Bool
  deriving DecidableEq, Repr

/-- A Slot record (section 2.1), with its wires DET_N and CPWR and its debounce timer. -/
structure Slot where
  state            : SlotState
  session          : Byte
  capacity         : Option Word32
  /-- 16 bytes as the card reports them. -/
  identity         : Option (List Byte)
  failedIdentifies : Nat
  failedImports    : Nat
  lastError        : Option LinkError
  /-- The Import Queue, head first. -/
  importQueue      : List Nat
  /-- Present while the head frame is FILLING. -/
  progress         : Option Progress
  /-- DET_N stands active (low). -/
  detect           : Bool
  /-- CPWR: card power is on. -/
  power            : Bool
  debounce         : Option Nat
  deriving DecidableEq, Repr

/-- What a card link is doing; odd names the slot of position 1 (R36 to R39). -/
inductive LinkWork where
  | free
  /-- WAKE of an identify exchange sent, with its BUSY answers so far. -/
  | wake (odd : Bool) (busy : Nat)
  /-- IDENTIFY sent. -/
  | identify (odd : Bool) (busy : Nat)
  /-- READ RUN sent for so many blocks. -/
  | readRun (odd : Bool) (busy count : Nat)
  /-- Block packets being received, so many still to come. -/
  | blocks (odd : Bool) (left : Nat)
  /-- HALT sent. -/
  | halt (odd : Bool) (busy : Nat)
  deriving DecidableEq, Repr

/-- A card link controller with its arbiter (section 2.2). -/
structure CardLink where
  work         : LinkWork
  /-- The command token sent last, 8 bytes, or none since the link was cleared (section 2.2.1). -/
  token        : List Byte
  responseWait : Option Nat
  /-- Runs while a packet is awaited; none with packets to come means CCLK stands still for want of a buffer (R37). -/
  blockWait    : Option Nat
  /-- Block buffers held by writes handed to the store port, 0 to 2. -/
  buffersHeld  : Nat
  /-- The arbiter pointer names the odd slot. -/
  pointerOdd   : Bool
  /-- The position whose slot has gained work first within a step that found the link free (R39); none between steps. -/
  gained       : Option Bool
  deriving DecidableEq, Repr

/-- The Card Intake Unit. -/
structure Cards where
  slots : Vector Slot 8
  links : Vector CardLink 4
  deriving DecidableEq, Repr

/-! ### Chapter 3: the order book -/

/-- The priority of an order (section 3.1). -/
inductive Priority where
  | standard
  | express
  deriving DecidableEq, Repr

/-- The fit mode of a line (section 3.1). -/
inductive Fit where
  | fill
  | fit
  | border
  deriving DecidableEq, Repr

/-- The states of an order (section 3.1). -/
inductive OrderState where
  | open
  | locked
  | printing
  | settling
  | closed
  | abandoned
  deriving DecidableEq, Repr

/-- The last tender outcome of an order (section 3.1). -/
inductive TenderOutcome where
  | declined
  | customer
  | withdrawn
  | short
  | terminalBusy
  deriving DecidableEq, Repr

/-- How an order ended (section 3.1). -/
inductive Finish where
  | captured
  | voided
  | writtenOff
  | cancelled
  | expired
  deriving DecidableEq, Repr

/-- The causes of a sheet's fault, in the order of the line table (section 3.1). -/
inductive SheetCause where
  | jam
  | dataError
  | headHot
  | aborted
  | mediaOut
  | mediaMismatch
  | decodeError
  | linkLost
  | storeError
  deriving DecidableEq, Repr

/-- One line of an order (section 3.1). -/
structure OrderLine where
  number       : Nat
  frame        : Nat
  product      : Fin 16
  unitPrice    : Nat
  fit          : Fit
  quantity     : Nat
  delivered    : Nat
  failed       : Nat
  withdrawn    : Nat
  inFlight     : Nat
  reprintsUsed : Nat
  lastFault    : Option SheetCause
  stopped      : Bool
  deriving DecidableEq, Repr

/-- One entry of the Order Table (section 3.1). Its number is its key in Book.orders. -/
structure Order where
  receiptCode      : Nat
  station          : Fin 4
  priority         : Priority
  state            : OrderState
  /-- In ascending line number. -/
  lines            : List OrderLine
  /-- The next line number; absent for EXHAUSTED. -/
  nextLine         : Option Nat
  reprintAllowance : Nat
  admission        : Option Nat
  valueDue         : Nat
  valueAuthorized  : Nat
  valueDelivered   : Nat
  valueCaptured    : Nat
  tender           : Option Nat
  cancelRequested  : Bool
  lastOutcome      : Option TenderOutcome
  finish           : Option Finish
  /-- Milliseconds to the idle deadline. -/
  idleDeadline     : Option Nat
  deriving DecidableEq, Repr

/-- One entry of the Price Table (R55). -/
structure Price where
  enabled : Bool
  media   : Nat
  price   : Nat
  deriving DecidableEq, Repr

/-- The Order Book. -/
structure Book where
  /-- The Order Table. -/
  orders      : List (Nat × Order)
  prices      : Vector Price 16
  /-- The last receipt code issued (R53). -/
  lastCode    : Option Nat
  /-- The admission counter (R66). -/
  admission   : Nat
  deriving DecidableEq, Repr

/-! ### Chapter 4: payment lines -/

/-- The parity of a line's mode (section 4.1). -/
inductive Parity where
  | none
  | even
  | odd
  deriving DecidableEq, Repr

/-- A line's mode (section 4.1). -/
structure LineMode where
  rate      : Nat
  dataBits  : Nat
  parity    : Parity
  stopBits  : Nat
  deriving DecidableEq, Repr

/-- The states of a payment line (section 4.1). -/
inductive LineState where
  | unset
  | down
  | up
  | broken
  deriving DecidableEq, Repr

/-- The cause of a LINE LOST: DSR inactive or enable OFF, a break, or a new mode (R82). -/
inductive LineLoss where
  | down
  | broken
  | mode
  deriving DecidableEq, Repr

/-- The message kinds the part sends (section 4.6). -/
inductive OutKind where
  | sale
  | withdraw
  | capture
  | void
  | enquire
  deriving DecidableEq, Repr

/-- A message in a line's transmit queue, with its bytes (R87). -/
structure OutMessage where
  kind    : OutKind
  tender  : Nat
  bytes   : List Byte
  /-- The message is the last one handed for its tender within the exchange (R99). -/
  current : Bool
  deriving DecidableEq, Repr

/-- What MESSAGE RECEIVED carries besides the tender number (R90). -/
inductive Reply where
  | approved (amount : Nat) (reference : List Byte)
  | declined (reason : Nat)
  | cancelled
  | withdrawn
  | captured (amount : Nat)
  | voided
  | busy
  | stateNone (status : NoMoney)
  | statePending
  | stateApproved (amount : Nat) (reference : List Byte)
  | stateCaptured (amount : Nat)
  deriving DecidableEq, Repr

/-- The assembler of a line (R88). -/
inductive Assembly where
  | hunting
  /-- A body so far, and whether a character of it was errored. -/
  | body (chars : List Byte) (errored : Bool)
  /-- A body ended by its ETX; the next character is the check byte. -/
  | check (chars : List Byte) (errored : Bool)
  deriving DecidableEq, Repr

/-- The character on TXD: none, the next one of the message being sent, or one whose message has been given up and which is completed
at the mode it began in, with the levels that character has on TXD (R82, R83). -/
inductive TxChar where
  | idle
  | own
  | orphan (levels : List Bool)
  deriving DecidableEq, Repr

/-- A line record (section 4.1) with its inputs and timers. -/
structure PayLine where
  mode         : Option LineMode
  enable       : Bool
  state        : LineState
  /-- The qualified level of DSR, true for ACTIVE (R80). -/
  dsr          : Bool
  parityError  : Bool
  framingError : Bool
  overrunError : Bool
  discarded    : Nat
  unexpected   : Nat
  lastDecline  : Option Nat
  /-- The transmit queue, the message being sent first. -/
  txQueue      : List OutMessage
  /-- Characters of the first message sent whole. -/
  txSent       : Nat
  txChar       : TxChar
  assembly     : Assembly
  /-- The tender number and reply of a completed message not yet taken (R90). -/
  handOff      : Option (Nat × Reply)
  /-- Received characters with their error marks, head first (R84). -/
  rxFifo       : List (Byte × Bool)
  /-- The overrun mark of the assembler (R84). -/
  overrunMark  : Bool
  /-- The level of the DSR input, true for active. -/
  dsrInput     : Bool
  dsrFilter    : Option Nat
  /-- The level of the CTS input, true for active. -/
  cts          : Bool
  ctsWait      : Option Nat
  /-- The cause of the LINE LOST reported last (R82); a record of the model's own, which no rule reads (log entry 46). -/
  lossCause    : Option LineLoss
  deriving DecidableEq, Repr

/-! ### Chapter 5: tenders -/

/-- The money state of a tender (R95). -/
inductive Money where
  | requested
  | approved
  | declined
  | captured
  | voided
  | writtenOff
  deriving DecidableEq, Repr

/-- The exchange of a tender (section 5.1). -/
inductive Exchange where
  | none
  | waitingLine
  | inExchange
  deriving DecidableEq, Repr

/-- The phase of a tender in exchange (section 5.1). -/
inductive Phase where
  | sending
  | awaiting
  deriving DecidableEq, Repr

/-- One entry of the Tender Table (section 5.1). Its number is its key in TenderUnit.tenders. The purposes are the message
kinds of section 5.2. -/
structure Tender where
  order             : Nat
  line              : Fin 4
  receiptCode       : Nat
  money             : Money
  exchange          : Exchange
  phase             : Option Phase
  purpose           : OutKind
  pendingPurpose    : Option OutKind
  amountRequested   : Nat
  amountApproved    : Nat
  amountToCapture   : Option Nat
  reference         : Option (List Byte)
  reportedAmount    : Option Nat
  busyCount         : Nat
  enquiryCount      : Nat
  pendingAnswers    : Nat
  unresolved        : Bool
  shortApproval     : Bool
  withdrawRequested : Bool
  saleSent          : Bool
  messageBegun      : Bool
  /-- Milliseconds to the reply deadline. -/
  replyDeadline     : Option Nat
  deriving DecidableEq, Repr

/-- The Tender Unit. -/
structure TenderUnit where
  /-- The Tender Table. -/
  tenders   : List (Nat × Tender)
  /-- The Exchange Queues, head first (R97). -/
  queues    : Vector (List Nat) 4
  /-- The view of each line: IN_SERVICE (section 5.1). -/
  inService : Vector Bool 4
  deriving DecidableEq, Repr

/-! ### Chapters 6 and 7: engines, sheet links and dispatch -/

/-- The states of a sheet link (section 6.2). -/
inductive EngineLink where
  | absent
  | hunting
  | online
  deriving DecidableEq, Repr

/-- The causes of a link loss (section 6.5). -/
inductive LinkLoss where
  | absent
  | silence
  | receiveFault
  | reset
  deriving DecidableEq, Repr

/-- The head states of an engine (section 6.1.1). -/
inductive HeadState where
  | idle
  | warming
  | printing
  | cooling
  | fault
  deriving DecidableEq, Repr

/-- The hold reasons of an engine, in the order of section 6.5. -/
structure Holds where
  host         : Bool
  thermalHigh  : Bool
  thermalStale : Bool
  mediaOut     : Bool
  deriving DecidableEq, Repr

/-- The states of a sheet (section 7.4). -/
inductive SheetState where
  | streaming
  | sent
  | unknown
  deriving DecidableEq, Repr

/-- A sheet record (section 7.4). -/
structure Sheet where
  tag           : Word16
  order         : Nat
  line          : Nat
  frame         : Nat
  state         : SheetState
  media         : Nat
  fit           : Fit
  payloadLength : Nat
  abortSent     : Bool
  deriving DecidableEq, Repr

/-- A frame the part sends on a sheet link (section 6.1.1). -/
inductive PartFrame where
  | hello (nextTag firstOpen : Word16)
  | sheetStart (tag : Word16) (media : Nat) (fitMode : Fit) (length : Nat)
  | sheetData (tag : Word16) (data : List Byte)
  | sheetEnd (tag : Word16) (crc : Word32)
  | sheetAbort (tag : Word16)
  deriving DecidableEq, Repr

/-- An entry of the control queue; the tags of a HELLO are taken when it begins (R119, R124). -/
inductive ControlFrame where
  | hello
  | abort (tag : Word16)
  deriving DecidableEq, Repr

/-- What the transmitter of a sheet link is sending (R119): nothing in ABSENT, a mark pair, or a frame. -/
inductive TxItem where
  | still
  | mark
  | frame (f : PartFrame)
  deriving DecidableEq, Repr

/-- The receive states of a sheet link (R120); off in ABSENT, and markDue while the mark pair after a frame is awaited. -/
inductive RxState where
  | off
  | hunt
  | marked
  | inFrame
  | markDue
  deriving DecidableEq, Repr

/-- A frame received with a good CRC: its kind byte and its payload (R120). -/
structure RawFrame where
  kind    : Byte
  payload : List Byte
  deriving DecidableEq, Repr

/-- The phases of a raster channel (section 7.5). -/
inductive ChannelPhase where
  | idle
  | reading
  | finishing
  | stopping
  deriving DecidableEq, Repr

/-- A raster channel (section 7.5). -/
structure Channel where
  phase       : ChannelPhase
  /-- The tag of the sheet it serves. -/
  sheet       : Option Word16
  /-- The frame it has pinned. -/
  frame       : Nat
  /-- The payload length of its sheet. -/
  length      : Nat
  pageIndex   : Nat
  readingPage : Option Page
  bytesRead   : Nat
  bytesHanded : Nat
  /-- The burst buffers that hold bytes, the older first; at most two. -/
  buffers     : List (List Byte)
  /-- The CRC-32 register over the bytes handed. -/
  crc         : Word32
  /-- The last check of the frame has passed and SHEET END is still to be handed (R151). -/
  endDue      : Bool
  /-- The engine's new sheet waits for the channel's STOPPING (R148, R153). -/
  sheetWaits  : Bool
  deriving DecidableEq, Repr

/-- An Engine record (section 6.5) with its arbiter state (section 7.3), its sheet link and its raster channel. -/
structure Engine where
  link            : EngineLink
  lastLoss        : Option LinkLoss
  enabled         : Bool
  stationMask     : BitVec 4
  media           : Nat
  sheetsRemaining : Nat
  head            : Option HeadState
  bufferFree      : Nat
  credit          : Nat
  holds           : Holds
  nextTag         : Word16
  lastCompleted   : Option Word16
  /-- The in-flight list, in creation order. -/
  sheets          : List Sheet
  relinkTimer     : Option Nat
  receiveFaults   : Nat
  strayOutcomes   : Nat
  protocolErrors  : Nat
  /-- The express run count, 0 to 4 (R144). -/
  expressRun      : Nat
  /-- The arbiter pointers (R145). -/
  expressPointer  : Fin 4
  standardPointer : Fin 4
  /-- The level of PRES_N, true for active. -/
  presInput       : Bool
  /-- The qualified presence (R123). -/
  present         : Bool
  presFilter      : Option Nat
  helloTimer      : Option Nat
  silenceTimer    : Option Nat
  /-- The control queue, head first (R119). -/
  control         : List ControlFrame
  /-- The frame waiting on the sheet path (R150). -/
  sheetPath       : Option PartFrame
  tx              : TxItem
  rx              : RxState
  /-- The receive buffer, head first (R121). -/
  rxBuffer        : List RawFrame
  /-- The frame taken from the buffer last while the link has stood in its state: the model's own record, which no rule reads (R122; log
  entry 5). -/
  taken           : Option RawFrame
  channel         : Channel
  deriving DecidableEq, Repr

/-! ### Chapter 8: the thermal watch and the management bus -/

/-- What the Thermal Watch keeps for one sensor (section 8.2). Whether it is stale is computed from this, the present mask and
the stale limit. -/
structure Sensor where
  /-- Degrees Celsius, or none. -/
  reading : Option Int
  /-- Milliseconds since the reading was taken. -/
  age     : Option Nat
  latch   : Bool
  deriving DecidableEq, Repr

/-- The states of the poller, in the order of section 8.2. -/
inductive PollState where
  | running
  | stopped
  | idle
  deriving DecidableEq, Repr

/-- Why the poller stopped (section 8.2). -/
inductive StopCause where
  | noAck (sensor : Fin 4)
  | stuck
  deriving DecidableEq, Repr

/-- The Thermal Watch. The present mask and the limits are parameters. -/
structure Thermal where
  sensors   : Vector Sensor 4
  cursor    : Fin 4
  state     : PollState
  stopCause : Option StopCause
  pollTimer : Option Nat
  deriving DecidableEq, Repr

/-- A claim on the management bus (R159). -/
inductive Claim where
  /-- A sensor read; void is set when the sensor has left the present mask during the transfer (R163). -/
  | poll (sensor : Fin 4) (void : Bool)
  /-- The loader's read of the option byte, and of the rest of the image. -/
  | loadOption
  | loadImage
  | settingsRead (address count : Nat)
  | settingsWrite (address : Nat) (data : List Byte)
  | recover
  deriving DecidableEq, Repr

/-- The last bus fault, with the device address for NO_ACK (R159). -/
inductive BusFault where
  | noAck (address : Byte)
  | stuck
  deriving DecidableEq, Repr

/-- The Management Bus Controller. -/
structure Bus where
  /-- The transfer in progress. -/
  current   : Option Claim
  /-- The claims waiting, head first. -/
  claims    : List Claim
  lastFault : Option BusFault
  /-- Milliseconds to the stop of the write of the SETTINGS WRITE in progress, before its polling (R171; log entry 26). -/
  writeLeft : Option Nat
  /-- The acknowledgement polling window, from the stop of the write on (R171). -/
  ackWindow : Option Nat
  deriving DecidableEq, Repr

/-! ### Chapter 9: the order link -/

/-- The statuses of a response, in the order of their codes (section 9.1.1). -/
inductive Status where
  | ok
  | notReady
  | badFrame
  | unknownRequest
  | badLength
  | badArgument
  | noSuchRecord
  | wrongState
  | tableFull
  | limit
  | staleSession
  | frameNotReady
  | productDisabled
  | lineDown
  | storeError
  | deviceNoAnswer
  deriving DecidableEq, Repr

/-- The conditions, in the order of their bits (section 9.4). -/
inductive Condition where
  | started
  | pinReset
  | linkOverrun
  | storeLow
  | sparesEmpty
  | busError
  | busStuck
  | noSettings
  | settingsBad
  | moneyMismatch
  deriving DecidableEq, Repr

/-- The link states (section 9.1.2). -/
inductive LinkState where
  | idle
  | receiving
  | working
  | answered
  deriving DecidableEq, Repr

/-- A response held (section 9.1.1). -/
structure Response where
  status  : Status
  payload : List Byte
  deriving DecidableEq, Repr

/-- The Order Link. -/
structure OrderLink where
  state      : LinkState
  /-- CS_N stands active (low). -/
  selected   : Bool
  /-- A payload length above 600 was found; bytes are discarded until CS_N rises (R176). -/
  overlong   : Bool
  /-- The request buffer: the bytes taken into the request frame after its mark, in RECEIVING. -/
  buffer     : List Byte
  /-- The request handed to its owning block and not yet taken by it. -/
  handed     : Option Instr
  /-- The request its block has taken, which waits on other work (R176). -/
  working    : Option Instr
  response   : Option Response
  /-- Bytes of the response shifted out since CS_N fell (R178). -/
  shifted    : Nat
  /-- The byte shifted out on SDO last. -/
  sdo        : Byte
  /-- A RESTART is answered and has not taken effect (R185). -/
  restartDue : Bool
  /-- The set change flags as their places in the scan order of R181, ascending. -/
  flags      : List Nat
  /-- The condition set, bit k for condition k. -/
  conditions : BitVec 10
  deriving DecidableEq, Repr

/-! ### Chapter 10 and the parameters -/

/-- The load progress (section 10.2); CHECKING and APPLYING pass within the step that ends the image read. -/
inductive LoadState where
  | readingOption
  | readingImage
  | checking
  | applying
  | done
  deriving DecidableEq, Repr

/-- The loader's outcome (section 10.2). -/
inductive LoadOutcome where
  | loadedShort
  | loadedLong
  | notAsked
  | noAnswer
  | badImage
  deriving DecidableEq, Repr

/-- The Configuration Loader. -/
structure Loader where
  state   : LoadState
  /-- The option byte held between its transfer and the image's. -/
  option  : Option Byte
  outcome : Option LoadOutcome
  deriving DecidableEq, Repr

/-- The parameters, in the order of their numbers (section 9.5.1). Times are in the unit of the table. -/
structure Params where
  spareTarget         : Nat
  lowMark             : Nat
  migrationThreshold  : Nat
  scrubInterval       : Nat
  stopOnUncorrectable : Nat
  idleLimit           : Nat
  reprintAllowance    : Nat
  codeSeed            : Nat
  saleReplyLimit      : Nat
  replyLimit          : Nat
  relinkLimit         : Nat
  presentMask         : Nat
  headHoldLimit       : Nat
  headCutoffLimit     : Nat
  cabinetLimit        : Nat
  hysteresis          : Nat
  staleLimit          : Nat
  pollInterval        : Nat
  deriving DecidableEq, Repr

/-- Start-up and RESET_N (R188, R187). -/
structure Part where
  /-- RESET_N is asserted. -/
  inReset  : Bool
  /-- Store initialisation has completed. -/
  initDone : Bool
  /-- Start-up has ended. -/
  started  : Bool
  deriving DecidableEq, Repr

/-- The whole part, and the commands that wait. -/
structure State where
  part    : Part
  link    : OrderLink
  params  : Params
  store   : Store
  cards   : Cards
  book    : Book
  lines   : Vector PayLine 4
  tenders : TenderUnit
  engines : Vector Engine 3
  /-- The Ready List: (order, line) pairs in sorted order (R139, R140). -/
  ready   : List (Nat × Nat)
  thermal : Thermal
  bus     : Bus
  loader  : Loader
  /-- The model's own counter for free choices (log entry 7); no part of the manual. -/
  choices : Nat
  /-- The commands that wait, first in, first out. -/
  pending : List Instr
  deriving DecidableEq, Repr

/-! ### The values at power-on -/

/-- The store port at power-on: both pointers name the last member (R27). -/
def Port.reset : Port :=
  { busy := none, waiting := [], rasterLast := 2, linkLast := 3, starvation := 0 }

/-- The Image Store at power-on: the pools are formed at the end of start-up only (R28). -/
def Store.reset : Store :=
  { mem := [], frames := [], attrs := [], freePool := [], spares := [], bad := [], retiringPages := [], waitList := [],
    migrationQueue := [], migration := none, notices := [], scrubCursor := 0, passCount := 0, patrol := .idle,
    scrubTimer := none, scrubStep := none, scrubWaiting := none, searchDue := false, port := Port.reset }

/-- A Slot record at power-on (R30); DET_N inactive (log entry 20). -/
def Slot.reset : Slot :=
  { state := .empty, session := 0, capacity := none, identity := none, failedIdentifies := 0, failedImports := 0,
    lastError := none, importQueue := [], progress := none, detect := false, power := false, debounce := none }

/-- A card link at power-on (R48). -/
def CardLink.reset : CardLink :=
  { work := .free, token := [], responseWait := none, blockWait := none, buffersHeld := 0, pointerOdd := true, gained := none }

/-- The Card Intake Unit at power-on (R48). -/
def Cards.reset : Cards :=
  { slots := Vector.replicate 8 Slot.reset, links := Vector.replicate 4 CardLink.reset }

/-- A Price Table entry at power-on (R55). -/
def Price.reset : Price := { enabled := false, media := 1, price := 0 }

/-- The Order Book at power-on (R74). -/
def Book.reset : Book :=
  { orders := [], prices := Vector.replicate 16 Price.reset, lastCode := none, admission := 0 }

/-- A line record at power-on (R92); the inputs DSR and CTS inactive (log entry 20). -/
def PayLine.reset : PayLine :=
  { mode := none, enable := false, state := .unset, dsr := false, parityError := false, framingError := false,
    overrunError := false, discarded := 0, unexpected := 0, lastDecline := none, txQueue := [], txSent := 0, txChar := .idle,
    assembly := .hunting, handOff := none, rxFifo := [], overrunMark := false, dsrInput := false, dsrFilter := none,
    cts := false, ctsWait := none, lossCause := none }

/-- The Tender Unit at power-on (R117). -/
def TenderUnit.reset : TenderUnit :=
  { tenders := [], queues := Vector.replicate 4 [], inService := Vector.replicate 4 false }

/-- No hold (R136). -/
def Holds.none : Holds := ⟨false, false, false, false⟩

/-- A raster channel at power-on (R157). -/
def Channel.reset : Channel :=
  { phase := .idle, sheet := none, frame := 0, length := 0, pageIndex := 0, readingPage := none, bytesRead := 0,
    bytesHanded := 0, buffers := [], crc := 0xFFFFFFFF, endDue := false, sheetWaits := false }

/-- An Engine record at power-on (R136, R157); PRES_N inactive (log entry 20). -/
def Engine.reset : Engine :=
  { link := .absent, lastLoss := none, enabled := true, stationMask := 15, media := 0, sheetsRemaining := 0, head := none,
    bufferFree := 0, credit := 0, holds := Holds.none, nextTag := 1, lastCompleted := none, sheets := [], relinkTimer := none,
    receiveFaults := 0, strayOutcomes := 0, protocolErrors := 0, expressRun := 0, expressPointer := 3, standardPointer := 3,
    presInput := false, present := false, presFilter := none, helloTimer := none, silenceTimer := none, control := [],
    sheetPath := none, tx := .still, rx := .off, rxBuffer := [], taken := none, channel := Channel.reset }

/-- A sensor at power-on (R172). -/
def Sensor.reset : Sensor := { reading := none, age := none, latch := false }

/-- The Thermal Watch at power-on (R172). -/
def Thermal.reset : Thermal :=
  { sensors := Vector.replicate 4 Sensor.reset, cursor := 0, state := .idle, stopCause := none, pollTimer := none }

/-- The bus at power-on, idle (R172). -/
def Bus.reset : Bus := { current := none, claims := [], lastFault := none, writeLeft := none, ackWindow := none }

/-- The Order Link at power-on (R186); CS_N inactive (log entry 20). -/
def OrderLink.reset : OrderLink :=
  { state := .idle, selected := false, overlong := false, buffer := [], handed := none, working := none, response := none,
    shifted := 0, sdo := 0xFF, restartDue := false, flags := [], conditions := 0 }

/-- The loader at the beginning of start-up (R189). -/
def Loader.reset : Loader := { state := .readingOption, option := none, outcome := none }

/-- The parameters at power-on: the defaults of the table (section 9.5.1, R193). -/
def Params.reset : Params :=
  { spareTarget := 64, lowMark := 256, migrationThreshold := 4, scrubInterval := 50, stopOnUncorrectable := 0, idleLimit := 600,
    reprintAllowance := 2, codeSeed := 100000, saleReplyLimit := 180, replyLimit := 15, relinkLimit := 120, presentMask := 15,
    headHoldLimit := 70, headCutoffLimit := 85, cabinetLimit := 50, hysteresis := 5, staleLimit := 5000, pollInterval := 1000 }

/-- The part right after power-on with RESET_N inactive: every block in its power-on state, store initialisation under way and
the loader's read of the option byte in progress on the free bus (R188, R189). -/
def State.reset : State :=
  { part := { inReset := false, initDone := false, started := false }
    link := OrderLink.reset
    params := Params.reset
    store := Store.reset
    cards := Cards.reset
    book := Book.reset
    lines := Vector.replicate 4 PayLine.reset
    tenders := TenderUnit.reset
    engines := Vector.replicate 3 Engine.reset
    ready := []
    thermal := Thermal.reset
    bus := { Bus.reset with current := some .loadOption }
    loader := Loader.reset
    choices := 0
    pending := [] }

end Sys2Proof.Machine
end

