-- ==== Sys2Proof/Machine/Assoc.lean ====
section
/-! DEFINITION. Tables as lists of (number, entry) pairs in ascending number, and sets as ascending lists: the operations every
record table, the store and the collections without order are read and written through. -/

namespace Sys2Proof.Machine

/-- The entry of number k, if it is present. -/
def find {α : Type} (k : Nat) : List (Nat × α) → Option α
  | [] => none
  | (n, a) :: rest => if n = k then some a else find k rest

/-- The table with entry a at number k, in its ascending place. -/
def put {α : Type} (k : Nat) (a : α) : List (Nat × α) → List (Nat × α)
  | [] => [(k, a)]
  | (n, b) :: rest =>
    if k < n then (k, a) :: (n, b) :: rest
    else if k = n then (k, a) :: rest
    else (n, b) :: put k a rest

/-- The table without the entry of number k. -/
def erase {α : Type} (k : Nat) (l : List (Nat × α)) : List (Nat × α) :=
  l.filter (fun p => p.1 ≠ k)

/-- The lowest number from k on, among the next fuel numbers, that has no entry. -/
def lowestFree {α : Type} (l : List (Nat × α)) : Nat → Nat → Option Nat
  | 0, _ => none
  | fuel + 1, k => if (find k l).isNone then some k else lowestFree l fuel (k + 1)

/-- The ascending list with x in its place, once. -/
def insertAsc {α : Type} (key : α → Nat) (x : α) : List α → List α
  | [] => [x]
  | y :: rest =>
    if key x < key y then x :: y :: rest
    else if key x = key y then x :: rest
    else y :: insertAsc key x rest

end Sys2Proof.Machine
end

