-- ==== Sys2Proof/Machine/Crc.lean ====
section
/-! DEFINITION. The checks of the ports: the two CRC-16s, the CRC-32 of the sheet payload, and the exclusive OR of tokens and
tender messages. -/

namespace Sys2Proof.Machine

/-- One bit of a CRC register that shifts left: out with the top bit, in with the polynomial. -/
def crcStepLeft (poly reg : Word16) : Word16 :=
  if reg.msb then (reg <<< 1) ^^^ poly else reg <<< 1

/-- f applied n times. -/
def iterate {α : Type} (f : α → α) : Nat → α → α
  | 0, a => a
  | n + 1, a => iterate f n (f a)

/-- One byte into a CRC-16 register, most significant bit first. -/
def crc16Byte (poly reg : Word16) (b : Byte) : Word16 :=
  iterate (crcStepLeft poly) 8 (reg ^^^ (b.setWidth 16 <<< 8))

/-- A CRC-16 of a byte sequence, most significant bit first, without final inversion. -/
def crc16 (poly init : Word16) (bytes : List Byte) : Word16 :=
  bytes.foldl (crc16Byte poly) init

/-- The CRC of a card block packet: x^16 + x^12 + x^5 + 1, initial value 0x0000 (section 2.2.1). -/
def cardCrc (bytes : List Byte) : Word16 := crc16 0x1021 0x0000 bytes

/-- The CRC of request and response frames: x^16 + x^12 + x^5 + 1, initial value 0xFFFF (section 9.1.1). -/
def orderLinkCrc (bytes : List Byte) : Word16 := crc16 0x1021 0xFFFF bytes

/-- The CRC of a sheet link frame: x^16 + x^15 + x^2 + 1, initial value 0xFFFF (section 6.1.1). -/
def sheetLinkCrc (bytes : List Byte) : Word16 := crc16 0x8005 0xFFFF bytes

/-- One bit of the CRC-32 register, least significant bit first. -/
def crc32Step (reg : Word32) : Word32 :=
  if reg.getLsbD 0 then (reg >>> 1) ^^^ 0xEDB88320 else reg >>> 1

/-- One byte into the CRC-32 register of a sheet payload (section 6.1.1). -/
def crc32Byte (reg : Word32) (b : Byte) : Word32 :=
  iterate crc32Step 8 (reg ^^^ b.setWidth 32)

/-- The CRC-32 register after more bytes. -/
def crc32Update (reg : Word32) (bytes : List Byte) : Word32 := bytes.foldl crc32Byte reg

/-- The register's starting value (section 6.1.1). -/
def crc32Start : Word32 := 0xFFFFFFFF

/-- The CRC-32 of a payload: the final register inverted (section 6.1.1). -/
def crc32Final (reg : Word32) : Word32 := ~~~reg

/-- The exclusive OR of bytes: the check byte of card tokens (section 2.2.1) and of tender messages (section 4.6). -/
def xorBytes (bytes : List Byte) : Byte := bytes.foldl (· ^^^ ·) 0

end Sys2Proof.Machine
end

