-- ==== Sys2Proof/Machine/Flags.lean ====
section
/-! DEFINITION. The change flags, the attention line and the condition set (sections 9.3 and 9.4). -/

namespace Sys2Proof.Machine

/-! ### Places of the flags in the scan order of R181 -/

/-- The PART flag is scanned first. -/
def partFlag : Nat := 0

/-- Slots 0 to 7 follow the PART flag. -/
def slotFlag (i : Nat) : Nat := 1 + i

/-- Lines 0 to 3 follow the slots. -/
def lineFlag (i : Nat) : Nat := 9 + i

/-- Engines 0 to 2 follow the lines. -/
def engineFlag (i : Nat) : Nat := 13 + i

/-- Frames 0 to 1023 follow the engines. -/
def frameFlag (n : Nat) : Nat := 16 + n

/-- Orders 0 to 63 come last. -/
def orderFlag (n : Nat) : Nat := 1040 + n

/-- How many flags there are (section 9.3). -/
def flagCount : Nat := 1104

/-- Every flag set, as after a pin reset or RESTART (R185, R187). -/
@[irreducible] def allFlags : List Nat := List.range flagCount

/-- The kind code and the number of the flag at a place of the scan order (section 9.3). -/
def flagName (k : Nat) : Nat × Nat :=
  if k < 1 then (0, 0)
  else if k < 9 then (1, k - 1)
  else if k < 13 then (2, k - 9)
  else if k < 16 then (3, k - 13)
  else if k < 1040 then (4, k - 16)
  else (5, k - 1040)

/-- A change flag is set; a flag already set stays set (R179). -/
def State.setFlag (k : Nat) (s : State) : State :=
  { s with link := { s.link with flags := insertAsc id k s.link.flags } }

/-- A change flag is set where the record's reported view has changed (R179). -/
def State.setFlagIf (changed : Bool) (k : Nat) (s : State) : State :=
  if changed then s.setFlag k else s

/-- Every change flag is set (R185, R187). -/
def State.setAllFlags (s : State) : State :=
  { s with link := { s.link with flags := allFlags } }

/-- ATTN_N is driven low: a flag is set and RESET_N is not asserted (R180). -/
def State.attention (s : State) : Bool :=
  !s.part.inReset && !s.link.flags.isEmpty

/-! ### Conditions -/

/-- The bit of a condition in the masks of READ CONDITIONS (section 9.4). -/
def Condition.bit : Condition → Nat
  | .started => 0
  | .pinReset => 1
  | .linkOverrun => 2
  | .storeLow => 3
  | .sparesEmpty => 4
  | .busError => 5
  | .busStuck => 6
  | .noSettings => 7
  | .settingsBad => 8
  | .moneyMismatch => 9

/-- The mask that holds one condition alone. -/
def Condition.mask (c : Condition) : BitVec 10 := BitVec.twoPow 10 c.bit

/-- The condition stands in the set. -/
def State.hasCondition (c : Condition) (s : State) : Bool :=
  s.link.conditions.getLsbD c.bit

/-- A condition is set, which sets the PART flag each time (R182, R179). -/
def State.setCondition (c : Condition) (s : State) : State :=
  { s with link := { s.link with
      conditions := s.link.conditions ||| c.mask
      flags := insertAsc id partFlag s.link.flags } }

end Sys2Proof.Machine
end

