-- ==== Sys2Proof/Machine/Operands.lean ====
section
/-! DEFINITION. How arguments and fields are carried (R177): numbers, named values, flags, optional fields and lists as bytes,
the numbering of every named value, and the ranges of the parameters. -/

namespace Sys2Proof.Machine

/-! ### Bytes of a number -/

/-- A number in one byte. -/
def byte1 (n : Nat) : List Byte := [BitVec.ofNat 8 n]

/-- A number in two bytes, most significant first. -/
def byte2 (n : Nat) : List Byte := [BitVec.ofNat 8 (n / 256), BitVec.ofNat 8 n]

/-- A number in four bytes, most significant first. -/
def byte4 (n : Nat) : List Byte :=
  [BitVec.ofNat 8 (n / 16777216), BitVec.ofNat 8 (n / 65536), BitVec.ofNat 8 (n / 256), BitVec.ofNat 8 n]

/-- A flag or an on/off value: 1 for set or on. -/
def byteFlag (b : Bool) : List Byte := [if b then 1 else 0]

/-- An optional field: a presence byte, then the field where it is present. -/
def byteOpt {α : Type} (enc : α → List Byte) : Option α → List Byte
  | none => [0]
  | some a => 1 :: enc a

/-- A reading in one byte, two's complement. -/
def byteInt (t : Int) : List Byte := [BitVec.ofInt 8 t]

/-- A two-byte word, most significant byte first. -/
def word2 (w : Word16) : List Byte := byte2 w.toNat

/-- A four-byte word, most significant byte first. -/
def word4 (w : Word32) : List Byte := byte4 w.toNat

/-! ### Numbers of the named values, from 0 in the order of their tables (R177) -/

/-- Status codes (section 9.1.1). -/
def Status.code : Status → Nat
  | .ok => 0
  | .notReady => 1
  | .badFrame => 2
  | .unknownRequest => 3
  | .badLength => 4
  | .badArgument => 5
  | .noSuchRecord => 6
  | .wrongState => 7
  | .tableFull => 8
  | .limit => 9
  | .staleSession => 10
  | .frameNotReady => 11
  | .productDisabled => 12
  | .lineDown => 13
  | .storeError => 14
  | .deviceNoAnswer => 15

def FrameState.code : FrameState → Nat
  | .waitingSpace => 0 | .queued => 1 | .filling => 2 | .open => 3 | .ready => 4 | .damaged => 5

def DamageCause.code : DamageCause → Nat
  | .removed => 0 | .cardError => 1 | .storeError => 2 | .cancelled => 3 | .reset => 4

def PatrolState.code : PatrolState → Nat
  | .running => 0 | .stopped => 1 | .idle => 2

def SlotState.code : SlotState → Nat
  | .empty => 0 | .settling => 1 | .identifying => 2 | .ready => 3 | .faulted => 4

def LinkError.code : LinkError → Nat
  | .responseTimeout => 0 | .tokenCheck => 1 | .busyLimit => 2 | .refused => 3 | .badCapacity => 4 | .blockTimeout => 5
  | .blockCheck => 6

def LinkPhase.code : LinkPhase → Nat
  | .waitingLink => 0 | .running => 1 | .halting => 2 | .draining => 3

def Priority.code : Priority → Nat
  | .standard => 0 | .express => 1

def Fit.code : Fit → Nat
  | .fill => 0 | .fit => 1 | .border => 2

def OrderState.code : OrderState → Nat
  | .open => 0 | .locked => 1 | .printing => 2 | .settling => 3 | .closed => 4 | .abandoned => 5

def TenderOutcome.code : TenderOutcome → Nat
  | .declined => 0 | .customer => 1 | .withdrawn => 2 | .short => 3 | .terminalBusy => 4

def Finish.code : Finish → Nat
  | .captured => 0 | .voided => 1 | .writtenOff => 2 | .cancelled => 3 | .expired => 4

def SheetCause.code : SheetCause → Nat
  | .jam => 0 | .dataError => 1 | .headHot => 2 | .aborted => 3 | .mediaOut => 4 | .mediaMismatch => 5 | .decodeError => 6
  | .linkLost => 7 | .storeError => 8

def Parity.code : Parity → Nat
  | .none => 0 | .even => 1 | .odd => 2

def LineState.code : LineState → Nat
  | .unset => 0 | .down => 1 | .up => 2 | .broken => 3

def OutKind.code : OutKind → Nat
  | .sale => 0 | .withdraw => 1 | .capture => 2 | .void => 3 | .enquire => 4

def Money.code : Money → Nat
  | .requested => 0 | .approved => 1 | .declined => 2 | .captured => 3 | .voided => 4 | .writtenOff => 5

def Exchange.code : Exchange → Nat
  | .none => 0 | .waitingLine => 1 | .inExchange => 2

def Phase.code : Phase → Nat
  | .sending => 0 | .awaiting => 1

def EngineLink.code : EngineLink → Nat
  | .absent => 0 | .hunting => 1 | .online => 2

def LinkLoss.code : LinkLoss → Nat
  | .absent => 0 | .silence => 1 | .receiveFault => 2 | .reset => 3

def HeadState.code : HeadState → Nat
  | .idle => 0 | .warming => 1 | .printing => 2 | .cooling => 3 | .fault => 4

def SheetState.code : SheetState → Nat
  | .streaming => 0 | .sent => 1 | .unknown => 2

def PollState.code : PollState → Nat
  | .running => 0 | .stopped => 1 | .idle => 2

/-- The hold reasons as a mask, the member of number k in bit k (log entry 18). -/
def Holds.mask (h : Holds) : Nat :=
  (if h.host then 1 else 0) + (if h.thermalHigh then 2 else 0) + (if h.thermalStale then 4 else 0) + (if h.mediaOut then 8 else 0)

/-- The stop cause: its number, then the sensor as a field of the NO_ACK variant (log entry 18). -/
def StopCause.bytes : StopCause → List Byte
  | .noAck sensor => byte1 0 ++ byteOpt byte1 (some sensor.val)
  | .stuck => byte1 1 ++ byteOpt byte1 none

/-- The last bus fault: its number, then the device address as a field of the NO_ACK variant (log entry 18). -/
def BusFault.bytes : BusFault → List Byte
  | .noAck address => byte1 0 ++ byteOpt (fun (a : Byte) => [a]) (some address)
  | .stuck => byte1 1 ++ byteOpt (fun (a : Byte) => [a]) none

/-! ### Arguments read from their bytes -/

/-- A priority argument. -/
def toPriority (b : Byte) : Option Priority :=
  if b = 0 then some .standard else if b = 1 then some .express else none

/-- A fit mode argument. -/
def toFit (b : Byte) : Option Fit :=
  if b = 0 then some .fill else if b = 1 then some .fit else if b = 2 then some .border else none

/-- A parity argument. -/
def toParity (b : Byte) : Option Parity :=
  if b = 0 then some .none else if b = 1 then some .even else if b = 2 then some .odd else none

/-- An on/off, flag or clear argument. -/
def toFlag (b : Byte) : Option Bool :=
  if b = 0 then some false else if b = 1 then some true else none

/-- A number below n, as an index. -/
def toFin (n : Nat) (k : Nat) : Option (Fin n) :=
  if h : k < n then some ⟨k, h⟩ else none

/-- The rates a line can take (R78). -/
def isRate (rate : Nat) : Bool :=
  rate == 9600 || rate == 19200 || rate == 38400 || rate == 57600 || rate == 115200

/-- The mode a SET LINE asks for, if its arguments are in range (R78). -/
def toLineMode (rate : Word32) (dataBits parity stopBits : Byte) : Option LineMode :=
  if isRate rate.toNat && (dataBits == 7 || dataBits == 8) && (stopBits == 1 || stopBits == 2) then
    (toParity parity).map fun p => { rate := rate.toNat, dataBits := dataBits.toNat, parity := p, stopBits := stopBits.toNat }
  else none

/-! ### Parameters (section 9.5.1) -/

/-- The range of a parameter by its number. -/
def paramRange : Nat → Option (Nat × Nat)
  | 0 => some (0, 255)
  | 1 => some (0, 4096)
  | 2 => some (1, 15)
  | 3 => some (0, 10000)
  | 4 => some (0, 1)
  | 5 => some (0, 3600)
  | 6 => some (0, 3)
  | 7 => some (0, 999999)
  | 8 => some (30, 600)
  | 9 => some (2, 60)
  | 10 => some (10, 600)
  | 11 => some (0, 15)
  | 12 => some (0, 125)
  | 13 => some (0, 125)
  | 14 => some (0, 125)
  | 15 => some (1, 20)
  | 16 => some (500, 60000)
  | 17 => some (100, 10000)
  | _ => none

/-- A value lies in the range of a parameter that exists. -/
def paramAdmits (p v : Nat) : Bool :=
  match paramRange p with
  | none => false
  | some (lo, hi) => decide (lo ≤ v) && decide (v ≤ hi)

/-- The value held for a parameter. -/
def Params.get (q : Params) : Nat → Nat
  | 0 => q.spareTarget
  | 1 => q.lowMark
  | 2 => q.migrationThreshold
  | 3 => q.scrubInterval
  | 4 => q.stopOnUncorrectable
  | 5 => q.idleLimit
  | 6 => q.reprintAllowance
  | 7 => q.codeSeed
  | 8 => q.saleReplyLimit
  | 9 => q.replyLimit
  | 10 => q.relinkLimit
  | 11 => q.presentMask
  | 12 => q.headHoldLimit
  | 13 => q.headCutoffLimit
  | 14 => q.cabinetLimit
  | 15 => q.hysteresis
  | 16 => q.staleLimit
  | 17 => q.pollInterval
  | _ => 0

/-- The parameters with one value stored. -/
def Params.set (q : Params) (p v : Nat) : Params :=
  match p with
  | 0 => { q with spareTarget := v }
  | 1 => { q with lowMark := v }
  | 2 => { q with migrationThreshold := v }
  | 3 => { q with scrubInterval := v }
  | 4 => { q with stopOnUncorrectable := v }
  | 5 => { q with idleLimit := v }
  | 6 => { q with reprintAllowance := v }
  | 7 => { q with codeSeed := v }
  | 8 => { q with saleReplyLimit := v }
  | 9 => { q with replyLimit := v }
  | 10 => { q with relinkLimit := v }
  | 11 => { q with presentMask := v }
  | 12 => { q with headHoldLimit := v }
  | 13 => { q with headCutoffLimit := v }
  | 14 => { q with cabinetLimit := v }
  | 15 => { q with hysteresis := v }
  | 16 => { q with staleLimit := v }
  | 17 => { q with pollInterval := v }
  | _ => q

end Sys2Proof.Machine
end

