-- ==== Sys2Proof/Machine/Ops.lean ====
section
/-! DEFINITION. The operations every block shares: the bytes of the store, saturating counts, the response of a request and its
taking by its block, and a free choice of order. -/

namespace Sys2Proof.Machine

/-! ### The bytes of the store -/

/-- What an address of the store that no entry lists reads as: store initialisation leaves zeros (R28). -/
def unlisted : Byte := 0

/-- The byte at an address of the store. -/
def readByte (mem : List Host.Cell) (a : Nat) : Byte := (find a mem).getD unlisted

/-- The store with one byte written; writing what an unlisted address reads as removes the entry. -/
def writeByte (mem : List Host.Cell) (a : Nat) (b : Byte) : List Host.Cell :=
  if b = unlisted then erase a mem else put a b mem

/-- Bytes from an address on. -/
def readBytes (mem : List Host.Cell) (a : Nat) : Nat → List Byte
  | 0 => []
  | n + 1 => readByte mem a :: readBytes mem (a + 1) n

/-- The store with bytes written from an address on. -/
def writeBytes (mem : List Host.Cell) (a : Nat) : List Byte → List Host.Cell
  | [] => mem
  | b :: rest => writeBytes (writeByte mem a b) (a + 1) rest

/-- The canonical form of the store's bytes: ascending addresses without repeats, and no entry equal to the unlisted byte. -/
def Memory.wf (mem : List Host.Cell) : Bool :=
  decide (mem.Pairwise (fun x y => x.1 < y.1)) && mem.all (fun c => c.2 != unlisted)

/-- The address of a position in a page. -/
def pageAddress (p : Page) (position : Nat) : Nat := p.val * Config.pageBytes + position

/-- The address of frame byte x: the page at extent entry x div 65536, at position x mod 65536 (R10, Placement). -/
def frameAddress (extent : List Page) (x : Nat) : Option Nat :=
  (extent[x / Config.pageBytes]?).map fun p => pageAddress p (x % Config.pageBytes)

/-- Bytes of a frame from offset x on, which may cross a page boundary (R12). -/
def readFrameBytes (mem : List Host.Cell) (extent : List Page) (x : Nat) : Nat → List Byte
  | 0 => []
  | n + 1 =>
    (match frameAddress extent x with
      | some a => readByte mem a
      | none => unlisted) :: readFrameBytes mem extent (x + 1) n

/-- The store with bytes of a frame written from offset x on, which may cross a page boundary (R10). -/
def writeFrameBytes (mem : List Host.Cell) (extent : List Page) (x : Nat) : List Byte → List Host.Cell
  | [] => mem
  | b :: rest =>
    writeFrameBytes
      (match frameAddress extent x with
        | some a => writeByte mem a b
        | none => mem) extent (x + 1) rest

/-! ### Counts -/

/-- A count raised by one that stops at its upper bound. -/
def saturate (limit n : Nat) : Nat := if n < limit then n + 1 else n

/-- ceil(n / d). -/
def ceilDiv (n d : Nat) : Nat := (n + d - 1) / d

/-- Seconds as milliseconds. -/
def seconds (n : Nat) : Nat := n * 1000

/-- Milliseconds as whole seconds, rounded up (R73, R116, R135). -/
def toSeconds (ms : Nat) : Nat := ceilDiv ms 1000

/-! ### Free choice of an order (log entry 7) -/

/-- The members of a list in an order chosen freely: where two or more remain, the next is picked by the free value at the
counter, which advances. -/
def chooseOrder {α : Type} : Nat → List α → Nat → List α × Nat
  | 0, _, c => ([], c)
  | _ + 1, [], c => ([], c)
  | _ + 1, [a], c => ([a], c)
  | fuel + 1, a :: rest, c =>
    let l := a :: rest
    let k := Config.freeChoice c % l.length
    match l[k]? with
    | none => ([], c)
    | some x =>
      let r := chooseOrder fuel (l.eraseIdx k) (c + 1)
      (x :: r.1, r.2)

/-- f made for every member of the list, in an order chosen freely. -/
def State.forEachFreely {α : Type} (l : List α) (f : α → State → State) (s : State) : State :=
  let r := chooseOrder l.length l s.choices
  r.1.foldl (fun t a => f a t) { s with choices := r.2 }

/-- f made for every member of the list, in list order. -/
def State.forEach {α : Type} (l : List α) (f : α → State → State) (s : State) : State :=
  l.foldl (fun t a => f a t) s

/-! ### The response of a request -/

/-- The response is made ready: the link enters ANSWERED and holds it (R175, R178). -/
def State.respond (status : Status) (payload : List Byte) (s : State) : State :=
  { s with link := { s.link with
      state := .answered
      handed := none
      working := none
      response := some ⟨status, payload⟩
      shifted := 0 } }

/-- A response of a status other than OK has an empty payload (section 9.1.1). -/
def State.refuse (status : Status) (s : State) : State := s.respond status []

/-- The bytes of a response frame (section 9.1.1). -/
def Response.bytes (r : Response) : List Byte :=
  let body := byte1 r.status.code ++ byte2 r.payload.length ++ r.payload
  0xA6 :: (body ++ word2 (orderLinkCrc body))

/-- RESTART takes effect: every change flag is set; the conditions are kept (R185). -/
def State.restartEffect (s : State) : State :=
  if s.link.restartDue then
    { s with link := { s.link with restartDue := false, flags := allFlags } }
  else s

/-- A request frame begins with an empty buffer: a response held is discarded, and a RESTART that waits takes effect (R175, R185). -/
def State.beginFrame (s : State) : State :=
  { s with link := { s.link with
      state := .receiving, overlong := false, buffer := [], response := none, shifted := 0 } }.restartEffect

/-- SDO shifts out 0xFF (R178). -/
def State.shiftFiller (s : State) : State := { s with link := { s.link with sdo := 0xFF } }

/-- The request is handed to its owning block, and the link enters WORKING (R176). -/
def State.handOver (i : Instr) (s : State) : State :=
  { s with link := { s.link with state := .working, handed := some i, working := none } }

/-- The owning block takes the request it was handed. -/
def State.takeHanded (i : Instr) (s : State) : State :=
  { s with link := { s.link with state := .working, handed := none, working := some i } }

/-- What a request command meets at the link (log entry 1). -/
inductive Arrival where
  /-- The request is taken by its block in this state. -/
  | taken (s : State)
  /-- The request reaches no block; the state after it. -/
  | turned (s : State)

/-- A request command arrives. Where the link has handed this request to its block, the block takes it. Where the link is IDLE or
ANSWERED with CS_N low the command stands for the whole good request frame and its taking: 0xFF is shifted out last, and the
frame is judged by the last cases of R176. While another request is worked the frame is lost and LINK_OVERRUN is set (R175). In
RECEIVING, with CS_N high, or while RESET_N is asserted, no request can come (R174, R187). -/
def State.arrive (i : Instr) (s : State) : Arrival :=
  if s.part.inReset then .turned s
  else if s.link.state = .working ∧ s.link.handed = some i then .taken (s.takeHanded i)
  else if s.link.selected = false then .turned s
  else
    match s.link.state with
    | .receiving => .turned s
    | .working => .turned (s.shiftFiller.setCondition .linkOverrun)
    | .idle | .answered =>
      let t := s.beginFrame.shiftFiller
      if s.part.started = false ∧ i ≠ .identifyPart then .turned (t.refuse .notReady)
      else if i.lengthSuits = false then .turned (t.refuse .badLength)
      else .taken (t.takeHanded i)

/-- A request is worked by its block where it arrives there. -/
def State.request (i : Instr) (work : State → State) (s : State) : State :=
  match s.arrive i with
  | .taken t => work t
  | .turned t => t

/-! ### When commands can act -/

/-- RESET_N is not asserted. -/
def State.live (s : State) : Bool := !s.part.inReset

/-- RESET_N is not asserted and start-up has ended. -/
def State.running (s : State) : Bool := !s.part.inReset && s.part.started

/-- f where the condition holds; where it does not, the command's event cannot occur and nothing changes (log entry 3). -/
def State.whenever (c : Bool) (f : State → State) (s : State) : State := if c then f s else s

end Sys2Proof.Machine
end

