-- ==== Sys2Proof/Machine/ImageStore.lean ====
section
/-! DEFINITION. The Image Store's shared operations (chapter 1): page attributes, the pools, the Space Wait List, migration, the
damage, return and retirement of frames, what a read's errors do, and the store port arbiter. -/

namespace Sys2Proof.Machine

/-! ### Records and their change flags -/

/-- The attributes of a page (R2). -/
def State.attr (p : Page) (s : State) : PageAttr := (find p.val s.store.attrs).getD PageAttr.clean

/-- The attributes of a page are stored; a clean page is listed nowhere. -/
def State.setAttr (p : Page) (a : PageAttr) (s : State) : State :=
  { s with store := { s.store with
      attrs := if a = PageAttr.clean then erase p.val s.store.attrs else put p.val a s.store.attrs } }

/-- The frame of a number, where it is present. -/
def State.frame (n : Nat) (s : State) : Option Frame := find n s.store.frames

/-- The frame is present and READY. -/
def State.frameReady (n : Nat) (s : State) : Bool :=
  match s.frame n with
  | some f => decide (f.state = .ready)
  | none => false

/-- The fields of a frame that READ FRAME reports (R18). -/
def Frame.view (f : Frame) : Frame := { f with heldBytes := [], retiring := false }

/-- A frame's record is stored; its change flag is set where a reported field has changed, and at creation (R6). -/
def State.setFrame (n : Nat) (f : Frame) (s : State) : State :=
  { s with store := { s.store with frames := put n f s.store.frames } }.setFlagIf
    (decide ((s.frame n).map Frame.view ≠ some f.view)) (frameFlag n)

/-- A present frame's record is changed. -/
def State.modFrame (n : Nat) (g : Frame → Frame) (s : State) : State :=
  match s.frame n with
  | none => s
  | some f => s.setFrame n (g f)

/-- A frame's record is freed, which sets its change flag (R17). A damage notice of the frame that still waits goes with it: no line cites
the frame any more, and the number may name another frame by the time the notice would be taken (log entry 48). -/
def State.dropFrame (n : Nat) (s : State) : State :=
  { s with store := { s.store with
      frames := erase n s.store.frames
      notices := s.store.notices.filter fun k => k ≠ n } }.setFlag (frameFlag n)

/-- The pages a byte length needs: ceil(byte length / 65536) (R7). -/
def pagesFor (byteLength : Nat) : Nat := ceilDiv byteLength Config.pageBytes

/-- The frame whose extent holds a page. -/
def State.owner (p : Page) (s : State) : Option Nat :=
  (s.store.frames.find? (fun e => e.2.extent.contains p)).map (·.1)

/-- Pages of a frame that the head's progress counts as completed: a page is completed when the writes of all its blocks are
(R35). -/
def Progress.pages (q : Progress) : Nat :=
  if q.written = q.blocks then ceilDiv q.blocks Config.blocksPerPage else q.written / Config.blocksPerPage

/-- The fields of a Slot record that READ SLOT reports (R35). -/
def Slot.view (t : Slot) : Slot :=
  { t with
    detect := false
    power := false
    debounce := none
    progress := t.progress.map fun q =>
      { next := 0, attempts := 0, phase := q.phase, blocks := 0, written := q.pages, cancel := false } }

/-- The Slot record of a slot. -/
def State.slot (i : Fin 8) (s : State) : Slot := s.cards.slots[i]

/-- A Slot record is stored; its change flag is set where a reported field has changed (R30). -/
def State.setSlot (i : Fin 8) (t : Slot) (s : State) : State :=
  { s with cards := { s.cards with slots := s.cards.slots.set i t } }.setFlagIf
    (decide ((s.slot i).view ≠ t.view)) (slotFlag i)

/-- A Slot record is changed. -/
def State.modSlot (i : Fin 8) (g : Slot → Slot) (s : State) : State := s.setSlot i (g (s.slot i))

/-- The card link of a number. -/
def State.cardLink (k : Fin 4) (s : State) : CardLink := s.cards.links[k]

/-- A card link is changed. -/
def State.modLink (k : Fin 4) (g : CardLink → CardLink) (s : State) : State :=
  { s with cards := { s.cards with links := s.cards.links.set k (g (s.cardLink k)) } }

/-! ### The slots of a card link, and their work (R39) -/

/-- The slot of a link in a position (chapter 2, opening). -/
def slotOf (k : Fin 4) (odd : Bool) : Fin 8 :=
  ⟨2 * k.val + (if odd then 1 else 0), by have := k.isLt; split <;> omega⟩

/-- The link of a slot. -/
def linkOf (i : Fin 8) : Fin 4 := ⟨i.val / 2, by have := i.isLt; omega⟩

/-- The slot is in position 1 of its link. -/
def isOdd (i : Fin 8) : Bool := i.val % 2 == 1

/-- The position that the link is working for. -/
def LinkWork.position : LinkWork → Option Bool
  | .free => none
  | .wake odd _ | .identify odd _ | .readRun odd _ _ | .blocks odd _ | .halt odd _ => some odd

/-- The slot has work for its link, which is not working for it (R39). -/
def State.slotHasWork (i : Fin 8) (s : State) : Bool :=
  let t := s.slot i
  match t.state with
  | .identifying => decide ((s.cardLink (linkOf i)).work.position ≠ some (isOdd i))
  | .ready =>
    match t.importQueue with
    | [] => false
    | n :: _ =>
      match s.frame n with
      | none => false
      | some f =>
        decide (f.state = .queued) ||
          (decide (f.state = .filling) &&
            (match t.progress with
              | some p => decide (p.phase = .waitingLink)
              | none => false))
  | .empty | .settling | .faulted => false

/-- A slot gains work: where its link stands free and no other slot has gained work in this step, it is to be granted first (R39: a
slot that gains work while the link is free is granted at once). -/
def State.gainWork (i : Fin 8) (s : State) : State :=
  let l := s.cardLink (linkOf i)
  if l.work = .free ∧ l.gained = none ∧ s.slotHasWork i then
    s.modLink (linkOf i) fun l => { l with gained := some (isOdd i) }
  else s

/-- The slot of a card frame gains work by the frame's pages, where the frame is the head of its Import Queue (R40). -/
def State.frameAllocated (f : Frame) (s : State) : State :=
  match f.origin with
  | .card i _ _ => s.gainWork i
  | .host => s

/-! ### The store port (R27) -/

/-- An access joins those that wait at the store port. -/
def State.askPort (a : Access) (s : State) : State :=
  { s with store := { s.store with port := { s.store.port with waiting := s.store.port.waiting ++ [a] } } }

/-- The accesses that wait and satisfy a test are withdrawn. -/
def State.withdrawWaiting (test : Access → Bool) (s : State) : State :=
  { s with store := { s.store with port := { s.store.port with
      waiting := s.store.port.waiting.filter (fun a => !test a) } } }

/-- The access being carried out ends. -/
def State.endAccess (s : State) : State :=
  { s with store := { s.store with port := { s.store.port with busy := none } } }

/-- The access is a burst of this raster channel. -/
def Access.isRaster (e : Fin 3) : Access → Bool
  | .raster c _ _ _ => c == e
  | _ => false

/-- The access is a block write of this card link. -/
def Access.isBlock (k : Fin 4) : Access → Bool
  | .block l _ _ _ _ => l == k
  | _ => false

/-- The access is a host data request. -/
def Access.isHost : Access → Bool
  | .hostWrite _ _ | .hostSeal _ | .hostRead _ _ _ => true
  | _ => false

/-- The access is a migration burst. -/
def Access.isMigration : Access → Bool
  | .migration _ _ _ => true
  | _ => false

/-- The access is a scrub portion. -/
def Access.isScrub : Access → Bool
  | .scrub _ => true
  | _ => false

/-- The access is a host data request on this frame. -/
def Access.isHostOn (n : Nat) : Access → Bool
  | .hostWrite f _ => f == n
  | .hostSeal f => f == n
  | .hostRead f _ _ => f == n
  | _ => false

/-- The access is a block write of this frame. -/
def Access.isBlockOf (n : Nat) : Access → Bool
  | .block _ f _ _ _ => f == n
  | _ => false

/-- A block write of this frame is void: it is dropped at its grant (R13). -/
def Access.voidBlock (n : Nat) : Access → Access
  | .block k f index data void => .block k f index data (void || f == n)
  | a => a

/-- The block writes of a frame that wait are void: the frame has left FILLING, so each is dropped at its grant, whatever frame holds the
number by then (R13). -/
def State.voidBlocks (n : Nat) (s : State) : State :=
  { s with store := { s.store with port := { s.store.port with waiting := s.store.port.waiting.map (Access.voidBlock n) } } }

/-- The access reads one of these pages. -/
def Access.reads (pages : List Page) : Access → Bool
  | .raster _ p _ _ => pages.contains p
  | .migration p _ _ => pages.contains p
  | .scrub p => pages.contains p
  | .block _ _ _ _ _ | .hostWrite _ _ | .hostSeal _ | .hostRead _ _ _ => false

/-- The waiting burst of the first raster channel after the one granted last. -/
def Port.nextRaster (q : Port) : Option Access :=
  (q.waiting.find? (Access.isRaster (q.rasterLast + 1))).or
    ((q.waiting.find? (Access.isRaster (q.rasterLast + 2))).or (q.waiting.find? (Access.isRaster q.rasterLast)))

/-- The waiting block write of the first card link after the one granted last. -/
def Port.nextBlock (q : Port) : Option Access :=
  (q.waiting.find? (Access.isBlock (q.linkLast + 1))).or
    ((q.waiting.find? (Access.isBlock (q.linkLast + 2))).or
      ((q.waiting.find? (Access.isBlock (q.linkLast + 3))).or (q.waiting.find? (Access.isBlock q.linkLast))))

/-- The waiting access of the best rank; while the starvation counter stands at 32 a migration burst ranks above import writers and
host data requests (R27). -/
def Port.choose (q : Port) : Option Access :=
  let starved := if q.starvation = Config.starvationLimit then q.waiting.find? Access.isMigration else none
  q.nextRaster.or (starved.or (q.nextBlock.or ((q.waiting.find? Access.isHost).or
    ((q.waiting.find? Access.isMigration).or (q.waiting.find? Access.isScrub)))))

/-- The port after a grant of an access that waited: the pointers and the starvation counter move (R27). -/
def Port.granted (a : Access) (q : Port) : Port :=
  let waiting := q.waiting.erase a
  { q with
    waiting := waiting
    rasterLast := match a with
      | .raster c _ _ _ => c
      | _ => q.rasterLast
    linkLast := match a with
      | .block l _ _ _ _ => l
      | _ => q.linkLast
    starvation := if a.isMigration then 0
      else if waiting.any Access.isMigration then saturate Config.starvationLimit q.starvation else q.starvation }

/-- A block buffer of a link falls free. A run that stood with its clock stopped for want of one goes on, and its block wait starts
again (R37). -/
def State.freeBuffer (k : Fin 4) (s : State) : State :=
  s.modLink k fun l =>
    let t := { l with buffersHeld := l.buffersHeld - 1 }
    match l.work, l.blockWait with
    | .blocks _ _, none => { t with blockWait := some Config.blockWaitMs }
    | _, _ => t

/-- A block write whose frame is no longer FILLING is dropped when its grant comes (R13). -/
def State.isDropped (a : Access) (s : State) : Option (Fin 4) :=
  match a with
  | .block k n _ _ void =>
    match s.frame n with
    | some f => if f.state = .filling ∧ void = false then none else some k
    | none => some k
  | _ => none

/-- The port, where it is free, grants the waiting access of the best rank; a grant that drops a block write leaves it free for the
next (R27, R13). -/
def State.grantPort : Nat → State → State
  | 0, s => s
  | fuel + 1, s =>
    match s.store.port.busy, s.store.port.choose with
    | none, some a =>
      let t := { s with store := { s.store with port := s.store.port.granted a } }
      match s.isDropped a with
      | some k => State.grantPort fuel (t.freeBuffer k)
      | none => { t with store := { t.store with port := { t.store.port with busy := some a } } }
    | _, _ => s

/-- The grant made at the end of a step (log entry 6). -/
def State.settlePort (s : State) : State := s.grantPort (s.store.port.waiting.length)

/-! ### Eligibility for scrubbing (R22) -/

/-- A page is eligible for scrubbing: in the extent of a READY or DAMAGED frame and not under migration (R22). -/
def State.scrubbable (p : Page) (s : State) : Bool :=
  s.store.frames.any (fun e => (e.2.state == .ready || e.2.state == .damaged) && e.2.extent.contains p) &&
  (match s.store.migration with
    | some m => decide (m.page ≠ p)
    | none => true)

/-- The scrub step in progress notes that its page has left eligibility (R22). -/
def ScrubStep.noteEligible (eligible : Page → Bool) (st : ScrubStep) : ScrubStep := { st with left := st.left || !eligible st.page }

/-- The errors that a portion has found count in its step, and with stop-on-uncorrectable set at the finding an uncorrectable group makes
the step stop the patrol when it ends (R23, R29 step 6; log entry 47). -/
def ScrubStep.count (stopSet : Bool) (e : ReadErrors) (st : ScrubStep) : ScrubStep :=
  { st with
    correctable := st.correctable + e.correctable
    uncorrectable := st.uncorrectable + e.uncorrectable
    stops := st.stops || (stopSet && decide (0 < e.uncorrectable)) }

/-- Stop-on-uncorrectable is set (R23). -/
def State.stopSet (s : State) : Bool := decide (s.params.stopOnUncorrectable = 1)

/-- The scrub step in progress looks at its page's eligibility, which this step has changed (R22). -/
def State.noteScrub (s : State) : State :=
  { s with store := { s.store with scrubStep := s.store.scrubStep.map (ScrubStep.noteEligible fun p => s.scrubbable p) } }

/-! ### The pools -/

/-- STORE_LOW is set where the Free Pool holds fewer pages than the low mark (R3). -/
def State.judgeLow (s : State) : State :=
  if s.store.freePool.length < s.params.lowMark then s.setCondition .storeLow else s

/-- A migration is tried: the head of the Migration Queue takes the lowest spare as its target and asks for its first burst, or
SPARES_EMPTY is set (R24). The page under migration is not eligible for scrubbing (R22). -/
def State.tryMigration (s : State) : State :=
  match s.store.migration, s.store.migrationQueue with
  | none, p :: queue =>
    match s.store.spares with
    | [] => s.setCondition .sparesEmpty
    | t :: spares =>
      { s with store := { s.store with
          migrationQueue := queue
          spares := spares
          migration := some { page := p, target := t, frame := (s.owner p).getD 0, bursts := 0 } } }.noteScrub.askPort
        (.migration p t 0)
  | _, _ => s

/-- A page joins the Spare Reserve, and a migration is tried (R4, R24). -/
def State.joinSpares (p : Page) (s : State) : State :=
  { s with store := { s.store with spares := insertAsc Fin.val p s.store.spares } }.tryMigration

/-- Pages move one at a time from the Free Pool's head to the Spare Reserve, up to the spare target, while the Space Wait List is
empty (R4). -/
def State.refillBy : Nat → State → State
  | 0, s => s
  | fuel + 1, s =>
    if s.store.waitList = [] ∧ s.store.spares.length < s.params.spareTarget then
      match s.store.freePool with
      | [] => s
      | p :: rest => State.refillBy fuel (({ s with store := { s.store with freePool := rest } }.joinSpares p).judgeLow)
    else s

/-- A refill of the Spare Reserve (R4). -/
def State.refill (s : State) : State := s.refillBy s.store.freePool.length

/-- A frame receives all its pages from the Free Pool's head and enters QUEUED or OPEN (R7, R3); a QUEUED head gives its slot work (R40). -/
def State.allocate (n : Nat) (f : Frame) (s : State) : State :=
  let need := pagesFor f.byteLength
  ({ s with store := { s.store with freePool := s.store.freePool.drop need } }.setFrame n
    { f with
      extent := s.store.freePool.take need
      state := match f.origin with
        | .card _ _ _ => .queued
        | .host => .open }).judgeLow.frameAllocated f

/-- Head frames of the Space Wait List are granted their pages while the Free Pool holds enough for them (R8). -/
def State.serveBy : Nat → State → State
  | 0, s => s
  | fuel + 1, s =>
    match s.store.waitList with
    | [] => s
    | n :: rest =>
      match s.frame n with
      | none => State.serveBy fuel { s with store := { s.store with waitList := rest } }
      | some f =>
        if pagesFor f.byteLength ≤ s.store.freePool.length then
          State.serveBy fuel (State.allocate n f { s with store := { s.store with waitList := rest } })
        else s

/-- The Space Wait List is served (R8). -/
def State.serveList (s : State) : State := s.serveBy s.store.waitList.length

/-- A page with its condemned mark set, or worn to the migration threshold, is not fit for the Free Pool (R5). -/
def State.unfit (p : Page) (s : State) : Bool :=
  (s.attr p).condemned || decide (s.params.migrationThreshold ≤ (s.attr p).wear)

/-- A page is placed at its return: the Bad Set or the tail of the Free Pool (R5). -/
def State.placePage (p : Page) (s : State) : State :=
  if s.unfit p then { s with store := { s.store with bad := insertAsc Fin.val p s.store.bad } }
  else { s with store := { s.store with freePool := s.store.freePool ++ [p] } }

/-- The return of one page: it is placed, the Space Wait List is served, and a refill is made if the list is then empty (R5). -/
def State.returnPage (p : Page) (s : State) : State := (s.placePage p).serveList.refill

/-- Pages are returned one after another (R5). -/
def State.returnPages (pages : List Page) (s : State) : State := pages.foldl (fun t p => t.returnPage p) s

/-- A migration target is handed back (R4). -/
def State.handBack (p : Page) (s : State) : State :=
  if s.store.spares.length < s.params.spareTarget then s.joinSpares p else s.returnPage p

/-- The migration in progress is abandoned: a burst that waits is withdrawn, the target is handed back and the next migration is
tried (R26). -/
def State.abandonMigration (s : State) : State :=
  match s.store.migration with
  | none => s
  | some m =>
    (({ s with store := { s.store with migration := none } }.withdrawWaiting Access.isMigration).handBack m.target).tryMigration

/-- The migration in progress is abandoned if its page is one of these (R14, R17). -/
def State.abandonMigrationOf (pages : List Page) (s : State) : State :=
  match s.store.migration with
  | some m => if pages.contains m.page then s.abandonMigration else s
  | none => s

/-- Pages leave the Migration Queue (R14, R17). -/
def State.unqueueMigration (pages : List Page) (s : State) : State :=
  { s with store := { s.store with migrationQueue := s.store.migrationQueue.filter (fun p => !pages.contains p) } }

/-! ### Return, retirement and damage of frames -/

/-- An access that keeps a DAMAGED frame's pages from being returned: a block write or raster burst in progress, or a host data
request (R14; log entry 10). -/
def State.holdsPages (n : Nat) (f : Frame) (s : State) : Bool :=
  (match s.store.port.busy with
    | some a => a.isBlockOf n || a.isHostOn n ||
        (match a with
          | .raster _ p _ _ => f.extent.contains p
          | _ => false)
    | none => false) ||
  s.store.port.waiting.any (Access.isHostOn n)

/-- Any store access in progress on the frame's pages, which a retirement waits for (R17 step 2). -/
def State.accessesPages (n : Nat) (f : Frame) (s : State) : Bool :=
  s.holdsPages n f ||
  (match s.store.port.busy with
    | some a => a.reads f.extent
    | none => false)

/-- The page return test of a DAMAGED frame: with a pin count of 0 and no access in progress its pages are returned in extent order,
and the extent becomes empty (R14). -/
def State.returnTest (n : Nat) (s : State) : State :=
  match s.frame n with
  | none => s
  | some f =>
    if f.state = .damaged ∧ f.extent ≠ [] ∧ f.pins = 0 ∧ s.holdsPages n f = false then
      (s.setFrame n { f with extent := [] }).noteScrub.returnPages f.extent
    else s

/-- The retirement of a frame that has passed the test: its pages leave the Migration Queue and a migration of one is abandoned, then
they are returned and the record is freed, once any access in progress on them has completed (R17). -/
def State.retireFrame (n : Nat) (f : Frame) (s : State) : State :=
  let t := (s.unqueueMigration f.extent).abandonMigrationOf f.extent
  if f.extent ≠ [] ∧ t.accessesPages n f then t.modFrame n fun g => { g with retiring := true }
  else ((t.modFrame n fun g => { g with extent := [] }).noteScrub.returnPages f.extent).dropFrame n

/-- The retirement test (R17). A frame still on its way to READY is never retired directly. -/
def State.retireTest (n : Nat) (s : State) : State :=
  match s.frame n with
  | none => s
  | some f =>
    if f.releasePending ∧ f.references = 0 ∧ f.pins = 0 ∧ (f.state = .open ∨ f.state = .ready ∨ f.state = .damaged) then
      s.retireFrame n f
    else s

/-- The tests made at the end of a store access on a frame's pages: the page return test, and the retirement that waited. -/
def State.settleFrame (n : Nat) (s : State) : State :=
  let t := s.returnTest n
  match t.frame n with
  | some f => if f.retiring then t.retireTest n else t
  | none => t

/-- The same tests for the frame whose extent holds a page. -/
def State.settlePage (p : Page) (s : State) : State :=
  match s.owner p with
  | some n => s.settleFrame n
  | none => s

/-- A frame leaves the Import Queue of its slot, with the head's progress if it was the FILLING head; a new head may give the slot work
(R40, R39). -/
def State.leaveImportQueue (n : Nat) (f : Frame) (s : State) : State :=
  match f.origin with
  | .host => s
  | .card i _ _ =>
    (s.modSlot i fun t =>
      { t with
        importQueue := t.importQueue.filter (fun k => k ≠ n)
        progress := if t.importQueue.head? = some n then none else t.progress }).gainWork i

/-- A frame leaves the Space Wait List wherever it stands; if it was the head the list is served for the new head (R8). -/
def State.leaveWaitList (n : Nat) (s : State) : State :=
  let t := { s with store := { s.store with waitList := s.store.waitList.filter (fun k => k ≠ n) } }
  if s.store.waitList.head? = some n then t.serveList else t

/-- A frame enters DAMAGED with its cause, and block writes of it that wait are void; a frame already DAMAGED keeps its first cause (R14,
R13). -/
def State.damageFrame (n : Nat) (cause : DamageCause) (s : State) : State :=
  match s.frame n with
  | none => s
  | some f =>
    if f.state = .damaged then s
    else
      let s1 := ((s.setFrame n { f with state := .damaged, cause := some cause }).voidBlocks n).leaveImportQueue n f
      let s2 := ((s1.leaveWaitList n).unqueueMigration f.extent).abandonMigrationOf f.extent
      let s3 := if f.state = .ready then { s2 with store := { s2.store with notices := s2.store.notices ++ [n] } } else s2
      (s3.returnTest n).retireTest n

/-- Frames are damaged one after another. -/
def State.damageFrames (l : List Nat) (cause : DamageCause) (s : State) : State :=
  l.foldl (fun t n => t.damageFrame n cause) s

/-! ### Reference, pin and reader counts -/

/-- A line cites the frame: the reference count rises (R15). -/
def State.raiseReference (n : Nat) (s : State) : State :=
  s.modFrame n fun f => { f with references := f.references + 1 }

/-- A citation goes: the reference count falls, and the retirement test follows (R15, R17). -/
def State.lowerReference (n : Nat) (s : State) : State :=
  (s.modFrame n fun f => { f with references := f.references - 1 }).retireTest n

/-- A raster channel pins the frame (R15). -/
def State.raisePin (n : Nat) (s : State) : State := s.modFrame n fun f => { f with pins := f.pins + 1 }

/-- A raster channel unpins the frame; the page return test and the retirement test follow (R15). -/
def State.lowerPin (n : Nat) (s : State) : State :=
  ((s.modFrame n fun f => { f with pins := f.pins - 1 }).returnTest n).retireTest n

/-- A raster channel begins to read a page (R2). -/
def State.raiseReader (p : Page) (s : State) : State :=
  s.setAttr p { s.attr p with readers := (s.attr p).readers + 1 }

/-- A raster channel leaves a page; a RETIRING page that loses its last reader goes to the Bad Set (R2, R25). -/
def State.lowerReader (p : Page) (s : State) : State :=
  let t := s.setAttr p { s.attr p with readers := (s.attr p).readers - 1 }
  if (t.attr p).readers = 0 ∧ t.store.retiringPages.contains p then
    { t with store := { t.store with
        retiringPages := t.store.retiringPages.filter (fun q => q ≠ p)
        bad := insertAsc Fin.val p t.store.bad } }
  else t

/-! ### What a write of the store stores, and what a read of it finds (R10, R13, R20, R21) -/

/-- Bytes of a frame are written to the store from an offset on. -/
def State.writeFrame (f : Frame) (x : Nat) (data : List Byte) (s : State) : State :=
  { s with store := { s.store with mem := writeFrameBytes s.store.mem f.extent x data } }

/-- The wear count of a page rises by one for each correctable group, saturating (R20). -/
def State.addWear (p : Page) (n : Nat) (s : State) : State :=
  s.setAttr p { s.attr p with wear := min Config.wearLimit ((s.attr p).wear + n) }

/-- An uncorrectable group condemns its page (R21). -/
def State.condemn (p : Page) (s : State) : State := s.setAttr p { s.attr p with condemned := true }

/-- A READY frame that holds a page with an uncorrectable group is damaged (R21). -/
def State.damageOwner (p : Page) (s : State) : State :=
  match s.owner p with
  | some n =>
    match s.frame n with
    | some f => if f.state = .ready then s.damageFrame n .storeError else s
    | none => s
  | none => s

/-- A page is admitted to the Migration Queue (R20). A frame that has passed the retirement test and awaits an access has had its pages
removed from the queue for good (R17). -/
def State.admits (p : Page) (s : State) : Bool :=
  decide (s.params.migrationThreshold ≤ (s.attr p).wear) &&
  (match (s.owner p).bind s.frame with
    | some f => decide (f.state = .ready) && !f.retiring
    | none => false) &&
  !s.store.migrationQueue.contains p &&
  (match s.store.migration with
    | some m => decide (m.page ≠ p)
    | none => true) &&
  decide (s.store.migrationQueue.length < Config.migrationQueueLimit)

/-- A worn page joins the tail of the Migration Queue where it is admitted; a migration is tried when the queue was empty (R20, R24). -/
def State.admitPage (p : Page) (s : State) : State :=
  if s.admits p then
    let t := { s with store := { s.store with migrationQueue := s.store.migrationQueue ++ [p] } }
    if s.store.migrationQueue = [] then t.tryMigration else t
  else s

/-- The errors of a read on a page are counted: wear, and the condemned mark (R20, R21). -/
def State.countErrors (p : Page) (e : ReadErrors) (s : State) : State :=
  let s1 := if e.correctable = 0 then s else s.addWear p e.correctable
  if e.uncorrectable = 0 then s1 else s1.condemn p

/-- What the errors of one read do, page by page: every error is counted, then a READY frame with an uncorrectable group is damaged, then
the pages with correctable groups are admitted (R20, R21; log entry 12). -/
def State.applyReads (l : List (Page × ReadErrors)) (s : State) : State :=
  let s1 := s.forEach l fun x => State.countErrors x.1 x.2
  let s2 := s1.forEach (l.filter fun x => decide (0 < x.2.uncorrectable)) fun x => State.damageOwner x.1
  s2.forEach (l.filter fun x => decide (0 < x.2.correctable)) fun x => State.admitPage x.1

/-- What the errors of a read of one page do (R20, R21). -/
def State.applyErrors (p : Page) (e : ReadErrors) (s : State) : State := s.applyReads [(p, e)]

/-! ### Creation (R6, R7) -/

/-- A new frame's record (R6). -/
def newFrame (origin : Origin) (byteLength : Nat) : Frame :=
  { state := .waitingSpace
    origin := origin
    byteLength := byteLength
    extent := []
    fillMark := match origin with
      | .host => some 0
      | .card _ _ _ => none
    heldBytes := []
    references := 0
    pins := 0
    releasePending := false
    cause := none
    retiring := false }

/-- The lowest frame number that is free (R6). -/
def State.freeFrame (s : State) : Option Nat := lowestFree s.store.frames Config.frameEntries 0

/-- A frame is created at a number: it receives all its pages at once, or joins the tail of the Space Wait List (R7). -/
def State.createFrameAt (n : Nat) (origin : Origin) (byteLength : Nat) (s : State) : State :=
  let f := newFrame origin byteLength
  if s.store.waitList = [] ∧ pagesFor byteLength ≤ s.store.freePool.length then State.allocate n f s
  else
    { s.setFrame n f with store := { (s.setFrame n f).store with waitList := s.store.waitList ++ [n] } }

/-! ### The patrol (R22, R23) -/

/-- The pages eligible for scrubbing. -/
def State.scrubPages (s : State) : List Page :=
  (s.store.frames.flatMap fun e => e.2.extent).filter fun p => s.scrubbable p

/-- The lower of two pages, the first absent. -/
def lowerPage (best : Option Page) (p : Page) : Option Page :=
  match best with
  | none => some p
  | some q => if p.val < q.val then some p else some q

/-- The next eligible page: the lowest at or after the cursor, or else the lowest of all (R22). -/
def State.nextScrub (s : State) : Option Page :=
  let all := s.scrubPages
  ((all.filter fun p => s.store.scrubCursor.val ≤ p.val).foldl lowerPage none).or (all.foldl lowerPage none)

/-- The scrub timer starts where the patrol is RUNNING (R22). -/
def State.startScrubTimer (s : State) : State :=
  { s with store := { s.store with
      scrubTimer := if s.store.patrol = .running then some s.params.scrubInterval else none } }

/-- A scrub step of a page is begun and asks for its first portion. -/
def State.beginScrub (p : Page) (host : Bool) (s : State) : State :=
  { s with store := { s.store with
      scrubStep := some
        { page := p, portions := 0, correctable := 0, uncorrectable := 0, host := host, left := false, stops := false } } }.askPort (.scrub p)

/-- The search of the patrol: the next eligible page is scrubbed and the cursor moves past it, or the timer starts again (R22). -/
def State.searchScrub (s : State) : State :=
  match s.nextScrub with
  | none => s.startScrubTimer
  | some p =>
    { s with store := { s.store with
        scrubCursor := p + 1
        passCount := if p.val = 4095 then s.store.passCount + 1 else s.store.passCount } }.beginScrub p false

/-- The patrol enters STOPPED where the step found an uncorrectable group while stop-on-uncorrectable was set (R23). That the parameter is
judged at the finding is the model's choice, after R29 step 6 (log entry 47), and so is that a search that is due is dropped (log entry
24). -/
def State.stopOnErrors (st : ScrubStep) (s : State) : State :=
  if st.stops then
    { s with store := { s.store with patrol := .stopped, scrubTimer := none, searchDue := false } }
  else s

/-- The answer of SCRUB PAGE: the correctable count, or STORE_ERROR with both counts (R23). That the correctable count comes first in a
STORE_ERROR payload is the model's choice: the rule gives the two counts no order (log entry 37). -/
def State.answerScrub (st : ScrubStep) (s : State) : State :=
  if 0 < st.uncorrectable then s.respond .storeError (byte2 st.correctable ++ byte2 st.uncorrectable)
  else s.respond .ok (byte2 st.correctable)

/-- After a step: a search that waited is made, and otherwise the timer starts after a patrol step (R22). -/
def State.afterScrub (host : Bool) (s : State) : State :=
  if s.store.searchDue ∧ s.store.patrol = .running then
    { s with store := { s.store with searchDue := false } }.searchScrub
  else if host then s else s.startScrubTimer

/-- A scrub step ends: the patrol may stop, a SCRUB PAGE is answered, and a SCRUB PAGE that waited for the step begins; where its page
is no longer eligible it ends at once with the counts found so far (R22, R23; log entry 24). -/
def State.endScrub (st : ScrubStep) (s : State) : State :=
  let s1 := ({ s with store := { s.store with scrubStep := none } }).stopOnErrors st
  let s2 := if st.host then s1.answerScrub st else s1
  match s2.store.scrubWaiting with
  | none => s2.afterScrub st.host
  | some p =>
    let u := { s2 with store := { s2.store with scrubWaiting := none } }
    let v := if st.host ∨ u.store.searchDue then u else u.startScrubTimer
    if v.scrubbable p then v.beginScrub p true
    else
      (v.answerScrub
        { page := p, portions := 0, correctable := 0, uncorrectable := 0, host := true, left := false, stops := false }).afterScrub true

end Sys2Proof.Machine
end

