-- ==== Sys2Proof/Machine/CardOps.lean ====
section
/-! DEFINITION. The Card Intake Unit's shared operations (chapter 2): command tokens, the judgement of response tokens, identify
exchanges, runs, HALT, the end of an import, the recorded cancel, and removal. -/

namespace Sys2Proof.Machine

/-! ### Links -/

/-- The link is released: it is free and awaits nothing. -/
def CardLink.release (l : CardLink) : CardLink := { l with work := .free, responseWait := none, blockWait := none }

/-! ### Tokens (section 2.2.1) -/

/-- The command kinds. -/
inductive CardCommand where
  | wake
  | identify
  | readRun
  | halt
  deriving DecidableEq, Repr

/-- The kind byte of a command token, with the position in bit 7. -/
def CardCommand.kindByte (odd : Bool) (c : CardCommand) : Byte :=
  (match c with
    | .wake => 0x01
    | .identify => 0x02
    | .readRun => 0x03
    | .halt => 0x04) ||| (if odd then 0x80 else 0x00)

/-- A command token: kind byte, argument, count and check byte. -/
def commandToken (odd : Bool) (c : CardCommand) (argument count : Nat) : List Byte :=
  let body := c.kindByte odd :: (byte4 argument ++ byte2 count)
  body ++ [xorBytes body]

/-- A command token is sent and its response wait starts (R36). -/
def CardLink.send (odd : Bool) (c : CardCommand) (argument count : Nat) (work : LinkWork) (l : CardLink) : CardLink :=
  { l with work := work, token := commandToken odd c argument count, responseWait := some Config.responseWaitMs, blockWait := none }

/-- The judgement of a response token (R36). -/
inductive Judgement where
  | fails (e : LinkError)
  | busy
  /-- OK, with the capacity and identity an IDENTIFY is answered with. -/
  | succeeds (capacity : Word32) (identity : List Byte)
  deriving DecidableEq, Repr

/-- Bytes as the part clocks them: an idle line reads 0xFF, so leading 0xFF open nothing and missing bytes read 0xFF. -/
def clocked (n : Nat) (token : List Byte) : List Byte :=
  let l := (token.dropWhile fun b => b == 0xFF).take n
  l ++ List.replicate (n - l.length) 0xFF

/-- A response token holds a byte other than 0xFF, so that it opens. -/
def opens (token : List Byte) : Bool := token.any fun b => b != 0xFF

/-- The echo and the check byte of a response token are right. -/
def tokenGood (kindByte : Byte) (t : List Byte) : Bool :=
  decide (t[1]? = some kindByte) && decide (t.getLast? = some (xorBytes t.dropLast))

/-- A word of the bytes of a response token, most significant first. -/
def word32At (t : List Byte) (k : Nat) : Word32 :=
  toWord32 (t.getD k 0) (t.getD (k + 1) 0) (t.getD (k + 2) 0) (t.getD (k + 3) 0)

/-- A response token judged against the kind byte sent (R36). -/
def judgeToken (kindByte : Byte) (identify : Bool) (token : List Byte) : Judgement :=
  let answer := (clocked 1 token).getD 0 0xFF
  let short := clocked 3 token
  if answer = 0xA0 then
    if identify then
      let t := clocked 23 token
      if tokenGood kindByte t then .succeeds (word32At t 2) ((t.drop 6).take 16) else .fails .tokenCheck
    else if tokenGood kindByte short then .succeeds 0 [] else .fails .tokenCheck
  else if answer = 0xB0 then if tokenGood kindByte short then .busy else .fails .tokenCheck
  else if answer = 0xC0 then if tokenGood kindByte short then .fails .refused else .fails .tokenCheck
  else .fails .tokenCheck

/-! ### The link arbiter (R39) -/

/-- The position granted when the link is free. Where both slots have work it is the one that gained it first, if the link stood free then,
and otherwise the one the pointer does not name (R39). -/
def State.grantPosition (k : Fin 4) (s : State) : Option Bool :=
  match s.slotHasWork (slotOf k false), s.slotHasWork (slotOf k true) with
  | true, true => some ((s.cardLink k).gained.getD (!(s.cardLink k).pointerOdd))
  | true, false => some false
  | false, true => some true
  | false, false => none

/-! ### Runs (R42, R43) -/

/-- Blocks of a frame: ceil(byte length / 512) (R42). -/
def blocksFor (byteLength : Nat) : Nat := ceilDiv byteLength Config.blockBytes

/-- The count of a run from a block to the end of its page (R42). -/
def runCount (next blocks : Nat) : Nat :=
  min (Config.blocksPerPage - next % Config.blocksPerPage) (blocks - next)

/-- The progress of the head of a slot's Import Queue is changed. -/
def State.modProgress (i : Fin 8) (g : Progress → Progress) (s : State) : State :=
  s.modSlot i fun t => { t with progress := t.progress.map g }

/-- The start block of a card frame. -/
def Origin.firstBlock : Origin → Nat
  | .card _ _ start => start.toNat
  | .host => 0

/-- A run of a slot's head frame starts: a QUEUED frame enters FILLING, and READ RUN is sent up to the end of the page (R42). -/
def State.startRun (k : Fin 4) (odd : Bool) (n : Nat) (f : Frame) (s : State) : State :=
  let i := slotOf k odd
  let fresh : Progress :=
    { next := 0, attempts := 0, phase := .running, blocks := blocksFor f.byteLength, written := 0, cancel := false }
  let p : Progress := if f.state = .queued then fresh else { ((s.slot i).progress.getD fresh) with phase := .running }
  let count := runCount p.next p.blocks
  let s1 := if f.state = .queued then s.setFrame n { f with state := .filling } else s
  (s1.modSlot i fun t => { t with progress := some p }).modLink k fun l =>
    l.send odd .readRun (f.origin.firstBlock + p.next) count (.readRun odd 0 count)

/-- A HALT is sent, and the phase is HALTING (R38, R43, R47). -/
def State.sendHalt (k : Fin 4) (odd : Bool) (s : State) : State :=
  (s.modProgress (slotOf k odd) fun p => { p with phase := .halting }).modLink k fun l => l.send odd .halt 0 0 (.halt odd 0)

/-- A failure's kind is recorded in the slot's last error (R36). -/
def State.setLastError (i : Fin 8) (e : LinkError) (s : State) : State := s.modSlot i fun t => { t with lastError := some e }

/-- The import of the head frame has failed: it is damaged, the failure is counted, and at the third the card is given up (R44). -/
def State.importFailed (i : Fin 8) (n : Nat) (s : State) : State :=
  let s1 := (s.damageFrame n .cardError).modSlot i fun t => { t with failedImports := t.failedImports + 1 }
  if (s1.slot i).failedImports < Config.attemptLimit then s1
  else
    (s1.damageFrames (s1.slot i).importQueue .cardError).modSlot i fun t => { t with state := .faulted, power := false }

/-- What the end of a failed or cancelled run does to its frame: a recorded cancel damages it, and otherwise the attempt counts against the
block (R43, R47). -/
def State.countAttempt (i : Fin 8) (s : State) : State :=
  match (s.slot i).importQueue, (s.slot i).progress with
  | n :: _, some p =>
    if p.cancel then s.damageFrame n .cancelled
    else if p.attempts + 1 < Config.attemptLimit then
      s.modProgress i fun q => { q with attempts := q.attempts + 1, phase := .waitingLink }
    else s.importFailed i n
  | _, _ => s

/-- A run that has failed or been cancelled is over, and the link falls free (R38, R43, R47). -/
def State.runOver (k : Fin 4) (odd : Bool) (s : State) : State := (s.countAttempt (slotOf k odd)).modLink k CardLink.release

/-- An attempt of a run fails: the kind is recorded, and HALT is sent except after REFUSED (R43). -/
def State.runFailed (k : Fin 4) (odd : Bool) (e : LinkError) (s : State) : State :=
  let s1 := s.setLastError (slotOf k odd) e
  if e = .refused then s1.runOver k odd else s1.sendHalt k odd

/-- A cancel is recorded against the slot's head import. -/
def State.cancelRecorded (i : Fin 8) (s : State) : Bool :=
  match (s.slot i).progress with
  | some p => p.cancel
  | none => false

/-- READ RUN is answered OK: the block packets follow, or HALT where a cancel is recorded (R37, R47). -/
def State.runGranted (k : Fin 4) (odd : Bool) (count : Nat) (s : State) : State :=
  if s.cancelRecorded (slotOf k odd) then s.sendHalt k odd
  else
    s.modLink k fun l =>
      { l with
        work := .blocks odd count
        responseWait := none
        blockWait := if l.buffersHeld < 2 then some Config.blockWaitMs else none }

/-- A block as it is written: the bytes at or beyond the byte length are zeros (R42). -/
def blockAsWritten (byteLength index : Nat) (data : List Byte) : List Byte :=
  let keep := byteLength - index * Config.blockBytes
  data.take keep ++ List.replicate (data.length - min keep data.length) 0

/-- A good block is handed to the store port, and the run goes on or ends (R37, R43). -/
def State.goodBlock (k : Fin 4) (odd : Bool) (left : Nat) (data : List Byte) (s : State) : State :=
  let i := slotOf k odd
  match (s.slot i).importQueue, (s.slot i).progress with
  | n :: _, some p =>
    let length := ((s.frame n).map (·.byteLength)).getD 0
    let s1 := s.askPort (.block k n p.next (blockAsWritten length p.next data) false)
    let q := { p with next := p.next + 1, attempts := 0 }
    if left ≤ 1 then
      (s1.modSlot i fun t =>
        { t with progress := some { q with phase := if q.next < q.blocks then .waitingLink else .draining } }).modLink k fun l =>
          { l.release with buffersHeld := l.buffersHeld + 1 }
    else
      (s1.modSlot i fun t => { t with progress := some q }).modLink k fun l =>
        { l with
          work := .blocks odd (left - 1)
          buffersHeld := l.buffersHeld + 1
          blockWait := if l.buffersHeld + 1 < 2 then some Config.blockWaitMs else none }
  | _, _ => s

/-! ### Identify exchanges (R32) -/

/-- An identify exchange fails (R32). -/
def State.identifyFailed (k : Fin 4) (odd : Bool) (e : LinkError) (s : State) : State :=
  (s.modLink k CardLink.release).modSlot (slotOf k odd) fun t =>
    let u := { t with lastError := some e, failedIdentifies := t.failedIdentifies + 1 }
    if u.failedIdentifies < Config.attemptLimit then u else { u with state := .faulted, power := false }

/-- An identify exchange succeeds (R32). -/
def State.identifySucceeded (k : Fin 4) (odd : Bool) (capacity : Word32) (identity : List Byte) (s : State) : State :=
  (s.modLink k CardLink.release).modSlot (slotOf k odd) fun t =>
    { t with
      state := .ready
      session := t.session + 1
      capacity := some capacity
      identity := some identity
      failedIdentifies := 0
      failedImports := 0
      lastError := none }

/-! ### The judgement of an exchange -/

/-- The kind byte that the work in progress has sent. -/
def LinkWork.kindByte : LinkWork → Option Byte
  | .wake odd _ => some (CardCommand.kindByte odd .wake)
  | .identify odd _ => some (CardCommand.kindByte odd .identify)
  | .readRun odd _ _ => some (CardCommand.kindByte odd .readRun)
  | .halt odd _ => some (CardCommand.kindByte odd .halt)
  | .free | .blocks _ _ => none

/-- The BUSY answers to the token sent, and the work after one more. -/
def LinkWork.oneBusy : LinkWork → Nat × LinkWork
  | .wake odd b => (b, .wake odd (b + 1))
  | .identify odd b => (b, .identify odd (b + 1))
  | .readRun odd b n => (b, .readRun odd (b + 1) n)
  | .halt odd b => (b, .halt odd (b + 1))
  | w => (0, w)

/-- The exchange in progress is judged failed (R36). -/
def State.exchangeFailed (k : Fin 4) (e : LinkError) (s : State) : State :=
  match (s.cardLink k).work with
  | .wake odd _ | .identify odd _ => s.identifyFailed k odd e
  | .readRun odd _ _ => s.runFailed k odd e
  | .halt odd _ => (s.setLastError (slotOf k odd) e).runOver k odd
  | .free | .blocks _ _ => s

/-- The exchange in progress is answered OK (R36). -/
def State.exchangeSucceeded (k : Fin 4) (capacity : Word32) (identity : List Byte) (s : State) : State :=
  match (s.cardLink k).work with
  | .wake odd _ => s.modLink k fun l => l.send odd .identify 0 0 (.identify odd 0)
  | .identify odd _ =>
    if capacity = 0 then s.identifyFailed k odd .badCapacity else s.identifySucceeded k odd capacity identity
  | .readRun odd _ count => s.runGranted k odd count
  | .halt odd _ => s.runOver k odd
  | .free | .blocks _ _ => s

/-- BUSY: a new response wait up to the tenth, and a failure at the eleventh (R36). -/
def State.exchangeBusy (k : Fin 4) (s : State) : State :=
  let b := (s.cardLink k).work.oneBusy
  if b.1 < Config.cardBusyLimit then
    s.modLink k fun l => { l with work := b.2, responseWait := some Config.responseWaitMs }
  else s.exchangeFailed k .busyLimit

/-! ### Cancel and removal (R33, R46, R47) -/

/-- A cancel is recorded against the import of a FILLING head, and carried out as its phase allows (R47). -/
def State.recordCancel (n : Nat) (i : Fin 8) (s : State) : State :=
  match (s.slot i).progress with
  | none => s
  | some p =>
    if p.cancel then s
    else
      let s1 := s.modProgress i fun q => { q with cancel := true }
      match p.phase with
      | .waitingLink | .draining => s1.damageFrame n .cancelled
      | .halting => s1
      | .running =>
        match (s1.cardLink (linkOf i)).work, (s1.cardLink (linkOf i)).blockWait with
        | .blocks _ _, none => s1.sendHalt (linkOf i) (isOdd i)
        | _, _ => s1

/-- A slot's unit of work begins: an identify exchange, or a run of its head frame; the pointer names the slot (R32, R39, R42). -/
def State.beginWork (k : Fin 4) (odd : Bool) (s : State) : State :=
  let i := slotOf k odd
  let t := s.modLink k fun l => { l with pointerOdd := odd, gained := none }
  match (t.slot i).state, (t.slot i).importQueue with
  | .identifying, _ => t.modLink k fun l => l.send odd .wake 0 0 (.wake odd 0)
  | .ready, n :: _ =>
    match t.frame n with
    | some f => t.startRun k odd n f
    | none => t
  | _, _ => t

/-- A free link is granted to a slot with work, and stays free where neither has any (R39). -/
def State.grantLink (k : Fin 4) (s : State) : State :=
  match (s.cardLink k).work, s.grantPosition k with
  | .free, some odd => s.beginWork k odd
  | .free, none => s.modLink k fun l => { l with gained := none }
  | _, _ => s

/-- Every free link whose slots have work is granted, for links 0 to 3 in that order (R39). -/
def State.grantLinks (s : State) : State := (((s.grantLink 0).grantLink 1).grantLink 2).grantLink 3

/-- What the arbiters do at the end of a step: the store port makes its grant (log entry 6), and once start-up has ended a card link that
has fallen free, or whose slot has gained work while it was free, is granted at once (R39). -/
def State.grantAll (s : State) : State :=
  let t := s.settlePort
  if t.running then t.grantLinks else t

/-- The other slot of a slot's link. -/
def otherSlot (i : Fin 8) : Fin 8 := slotOf (linkOf i) (!isOdd i)

/-- The link abandons its work for a slot whose card is removed, and serves the other slot at once if that has work (R33 step 1). -/
def State.abandonWork (i : Fin 8) (s : State) : State :=
  if (s.cardLink (linkOf i)).work.position = some (isOdd i) then
    let t := s.modLink (linkOf i) CardLink.release
    if t.slotHasWork (otherSlot i) then t.beginWork (linkOf i) (!isOdd i) else t
  else s

/-- A card is removed (R33). -/
def State.removeCard (i : Fin 8) (s : State) : State :=
  let s1 := (s.modSlot i fun t => { t with detect := false }).abandonWork i
  (s1.damageFrames (s1.slot i).importQueue .removed).modSlot i fun t =>
    { t with
      state := .empty
      power := false
      capacity := none
      identity := none
      failedIdentifies := 0
      failedImports := 0 }

/-- A slot enters SETTLING with a fresh debounce timer (R31, R34). -/
def Slot.settle (t : Slot) : Slot := { t with state := .settling, debounce := some Config.debounceMs }

/-- A slot whose DET_N is active enters SETTLING; made at the end of start-up and at the release of a pin reset (R48, R49). -/
def State.detectSlot (i : Fin 8) (s : State) : State :=
  s.modSlot i fun t => if t.detect ∧ t.state = .empty then t.settle else t

end Sys2Proof.Machine
end

