-- ==== Sys2Proof/Machine/CardSlots.lean ====
section
/-! DEFINITION. The commands of card slots and import (chapter 2), from DET_N to the completion of a block write. -/

namespace Sys2Proof.Machine

/-! ### Detection (R31, R33) -/

/-- DETECT_ACTIVE (R31): an EMPTY slot enters SETTLING. Before start-up has ended, and while RESET_N is asserted, the input is not
sampled and its level alone changes (R48, R49). -/
def execDetectActive (slot : Fin 8) (s : State) : Host.Outcome State Fault Refusal :=
  .next (s.whenever (!(s.slot slot).detect) fun t =>
    t.modSlot slot fun u =>
      if t.running ∧ u.state = .empty then { u with detect := true }.settle else { u with detect := true })

/-- DETECT_RELEASE_SETTLING (R31): the slot returns to EMPTY. -/
def execDetectReleaseSettling (slot : Fin 8) (s : State) : Host.Outcome State Fault Refusal :=
  .next (s.whenever ((s.slot slot).detect && (!s.running || decide ((s.slot slot).state = .settling))) fun t =>
    t.modSlot slot fun u =>
      if u.state = .settling then { u with detect := false, state := .empty, debounce := none } else { u with detect := false })

/-- DEBOUNCE_EXPIRY (R31): card power goes on and the slot enters IDENTIFYING. -/
def execDebounceExpiry (slot : Fin 8) (s : State) : Host.Outcome State Fault Refusal :=
  .next (s.whenever (s.running && decide ((s.slot slot).state = .settling) && (s.slot slot).debounce.isSome && (s.slot slot).detect)
    fun t => (t.modSlot slot fun u => { u with state := .identifying, power := true, debounce := none }).grantAll)

/-- CARD_REMOVAL (R33). -/
def execCardRemoval (slot : Fin 8) (s : State) : Host.Outcome State Fault Refusal :=
  let st := (s.slot slot).state
  .next (s.whenever (s.running && (s.slot slot).detect && decide (st = .identifying ∨ st = .ready ∨ st = .faulted))
    fun t => (t.removeCard slot).grantAll)

/-! ### Slot requests (R34, R35) -/

/-- RESET SLOT (R34). -/
def State.resetSlot (slot : Byte) (s : State) : State :=
  match toFin 8 slot.toNat with
  | none => s.refuse .badArgument
  | some i =>
    if (s.slot i).state ≠ .faulted then s.refuse .wrongState
    else
      (s.modSlot i fun t =>
        { t with failedIdentifies := 0, failedImports := 0, power := false, capacity := none, identity := none }.settle).respond
          .ok []

/-- RESET_SLOT (R34). -/
def execResetSlot (slot : Byte) (s : State) : Host.Outcome State Fault Refusal :=
  .next (s.request (.resetSlot slot) (State.resetSlot slot))

/-- The pages completed and the link phase of a FILLING head, each a field of that variant (R35, R177). -/
def Slot.progressBytes (t : Slot) : List Byte :=
  byteOpt (fun (q : Progress) => byte2 q.pages) t.progress ++ byteOpt (fun (q : Progress) => byte1 q.phase.code) t.progress

/-- The payload of READ SLOT (R35). -/
def Slot.bytes (i : Fin 8) (t : Slot) : List Byte :=
  byte1 i.val ++ byte1 t.state.code ++ [t.session] ++ byteOpt word4 t.capacity ++ byteOpt id t.identity ++
    byte1 t.failedIdentifies ++ byte1 t.failedImports ++ byteOpt (fun (e : LinkError) => byte1 e.code) t.lastError ++
    byte1 t.importQueue.length ++ t.importQueue.flatMap byte2 ++ t.progressBytes

/-- READ_SLOT (R35). -/
def execReadSlot (slot : Byte) (s : State) : Host.Outcome State Fault Refusal :=
  .next (s.request (.readSlot slot) fun t =>
    match toFin 8 slot.toNat with
    | none => t.refuse .badArgument
    | some i => t.respond .ok ((t.slot i).bytes i))

/-! ### Import requests (R41, R46) -/

/-- The frame of an accepted IMPORT FRAME is created and joins the tail of the Import Queue (R41, R13). -/
def State.queueImport (i : Fin 8) (session : Byte) (start byteLength : Word32) (k : Nat) (s : State) : State :=
  let t := (s.createFrameAt k (.card i session start) byteLength.toNat).modSlot i fun u =>
    { u with importQueue := u.importQueue ++ [k] }
  t.respond .ok (byte2 k ++ byte1 (((t.frame k).map fun f => f.state.code).getD 0))

/-- IMPORT FRAME (R41). -/
def State.importFrame (slot session : Byte) (start byteLength : Word32) (s : State) : State :=
  match toFin 8 slot.toNat with
  | none => s.refuse .badArgument
  | some i =>
    let t := s.slot i
    if byteLength.toNat = 0 then s.refuse .badArgument
    else if Config.maxFrameBytes < byteLength.toNat then s.refuse .limit
    else if t.state ≠ .ready then s.refuse .wrongState
    else if session ≠ t.session then s.refuse .staleSession
    else if ((t.capacity.map (·.toNat)).getD 0) < start.toNat + blocksFor byteLength.toNat then s.refuse .badArgument
    else if Config.importQueueLimit ≤ t.importQueue.length then s.refuse .tableFull
    else
      match s.freeFrame with
      | none => s.refuse .tableFull
      | some k => s.queueImport i session start byteLength k

/-- IMPORT_FRAME (R41). -/
def execImportFrame (slot session : Byte) (startBlock byteLength : Word32) (s : State) : Host.Outcome State Fault Refusal :=
  .next (s.request (.importFrame slot session startBlock byteLength)
    (State.importFrame slot session startBlock byteLength)).grantAll

/-- CANCEL IMPORT (R46). -/
def State.cancelImport (frame : Word16) (s : State) : State :=
  let n := frame.toNat
  match s.frame n with
  | none => s.refuse .noSuchRecord
  | some f =>
    match f.origin, f.state with
    | .host, _ => s.refuse .wrongState
    | .card _ _ _, .waitingSpace | .card _ _ _, .queued => (s.damageFrame n .cancelled).respond .ok []
    | .card i _ _, .filling => (s.recordCancel n i).respond .ok []
    | .card _ _ _, .open | .card _ _ _, .ready | .card _ _ _, .damaged => s.refuse .wrongState

/-- CANCEL_IMPORT (R46). -/
def execCancelImport (frame : Word16) (s : State) : Host.Outcome State Fault Refusal :=
  .next (s.request (.cancelImport frame) (State.cancelImport frame)).grantAll

/-! ### The card link (section 2.2) -/

/-- LINK_GRANT (R39): a free link is granted to a slot with work. Every step that frees a link or gives a slot work makes this grant in
itself (State.grantAll). -/
def execLinkGrant (link : Fin 4) (s : State) : Host.Outcome State Fault Refusal :=
  .next (s.whenever s.running (State.grantLink link))

/-- A response token is judged and acts on the exchange in progress (R36). -/
def State.takeToken (k : Fin 4) (kindByte : Byte) (token : List Byte) (s : State) : State :=
  let identify := match (s.cardLink k).work with
    | .identify _ _ => true
    | _ => false
  match judgeToken kindByte identify token with
  | .fails e => s.exchangeFailed k e
  | .busy => s.exchangeBusy k
  | .succeeds capacity identity => s.exchangeSucceeded k capacity identity

/-- RESPONSE_TOKEN (R36). -/
def execResponseToken (link : Fin 4) (token : List Byte) (s : State) : Host.Outcome State Fault Refusal :=
  .next (match (s.cardLink link).work.kindByte with
    | some kindByte =>
      s.whenever (s.running && (s.cardLink link).responseWait.isSome && opens token)
        fun t => (t.takeToken link kindByte token).grantAll
    | none => s)

/-- RESPONSE_WAIT_EXPIRY (R36). -/
def execResponseWaitExpiry (link : Fin 4) (s : State) : Host.Outcome State Fault Refusal :=
  .next (s.whenever (s.running && (s.cardLink link).responseWait.isSome) fun t => (t.exchangeFailed link .responseTimeout).grantAll)

/-- A block packet received whole is judged; under a recorded cancel it is discarded and HALT is sent (R37, R47). -/
def State.takeBlock (k : Fin 4) (odd : Bool) (left : Nat) (start : Byte) (data : List Byte) (crc : Word16) (s : State) : State :=
  if start ≠ 0xFE ∨ crc ≠ cardCrc data then s.runFailed k odd .blockCheck
  else if s.cancelRecorded (slotOf k odd) then s.sendHalt k odd
  else s.goodBlock k odd left data

/-- BLOCK_PACKET (R37): the packet comes while the clock runs and a packet is awaited. -/
def execBlockPacket (link : Fin 4) (start : Byte) (data : List Byte) (crc : Word16) (s : State) :
    Host.Outcome State Fault Refusal :=
  .next (match (s.cardLink link).work with
    | .blocks odd left =>
      s.whenever (s.running && (s.cardLink link).blockWait.isSome && start != 0xFF && data.length == 512)
        fun t => (t.takeBlock link odd left start data crc).grantAll
    | _ => s)

/-- BLOCK_WAIT_EXPIRY (R37). -/
def execBlockWaitExpiry (link : Fin 4) (s : State) : Host.Outcome State Fault Refusal :=
  .next (match (s.cardLink link).work with
    | .blocks odd _ =>
      s.whenever (s.running && (s.cardLink link).blockWait.isSome) fun t => (t.runFailed link odd .blockTimeout).grantAll
    | _ => s)

/-! ### Block writes (R13, R45) -/

/-- The import completes: the frame enters READY and leaves the queue (R45). -/
def State.completeImport (i : Fin 8) (n : Nat) (f : Frame) (s : State) : State :=
  ((s.setFrame n { f with state := .ready }).leaveImportQueue n f).modSlot i fun t => { t with failedImports := 0 }

/-- A block's store write completes: its buffer falls free, and for a frame still FILLING the write counts (R13, R45). -/
def State.blockWriteComplete (k : Fin 4) (n index : Nat) (data : List Byte) (s : State) : State :=
  match s.frame n with
  | none => s.freeBuffer k
  | some f =>
    let s1 := (s.writeFrame f (index * Config.blockBytes) data).freeBuffer k
    match f.state, f.origin with
    | .filling, .card i _ _ =>
      let s2 := s1.modProgress i fun p => { p with written := p.written + 1 }
      match (s2.slot i).progress with
      | some p => if p.blocks ≤ p.written then s2.completeImport i n f else s2
      | none => s2
    | _, _ => s1.settleFrame n

/-- BLOCK_WRITE_COMPLETE (R13). -/
def execBlockWriteComplete (link : Fin 4) (s : State) : Host.Outcome State Fault Refusal :=
  .next (match s.store.port.busy with
    | some (.block k n index data _) =>
      if k = link then (s.endAccess.blockWriteComplete k n index data).grantAll else s
    | _ => s)

end Sys2Proof.Machine
end

