-- ==== Sys2Proof/Machine/OrderRecords.lean ====
section
/-! DEFINITION. Order records (chapter 3): the record and its flag, the idle deadline, and the reports of the Tender Unit that change
an order alone (R64). -/

namespace Sys2Proof.Machine

/-- The order of a number, where it is present. -/
def State.order (n : Nat) (s : State) : Option Order := find n s.book.orders

/-- An order's record is stored; its change flag is set where a field has changed, and at creation (R50). -/
def State.setOrder (n : Nat) (o : Order) (s : State) : State :=
  { s with book := { s.book with orders := put n o s.book.orders } }.setFlagIf (decide (s.order n ≠ some o)) (orderFlag n)

/-- A present order's record is changed. -/
def State.modOrder (n : Nat) (g : Order → Order) (s : State) : State :=
  match s.order n with
  | none => s
  | some o => s.setOrder n (g o)

/-- The idle deadline that a start or restart sets: the idle limit in force, or absent where that is 0 (R60). -/
def State.freshDeadline (s : State) : Option Nat :=
  if s.params.idleLimit = 0 then none else some (seconds s.params.idleLimit)

/-- The order enters OPEN again with a new idle deadline (R64, R60). -/
def State.reopen (o : Order) (s : State) : Order := { o with state := .open, idleDeadline := s.freshDeadline }

/-- A report that no cell of R64 takes: MONEY_MISMATCH is set and the order stands as it is. -/
def State.mismatch (n : Nat) (s : State) : State := (s.setCondition .moneyMismatch).setFlag (orderFlag n)

/-- A report changes an order; every report sets the order's change flag (R64). -/
def State.reportTo (n : Nat) (g : Order → Option Order) (s : State) : State :=
  match s.order n with
  | none => s.mismatch n
  | some o =>
    match g o with
    | none => s.mismatch n
    | some p => (s.setOrder n p).setFlag (orderFlag n)

/-- The DECLINED report (R64). -/
def State.reportDeclined (n : Nat) (cause : TenderOutcome) (s : State) : State :=
  s.reportTo n fun o =>
    let p := { o with tender := none, valueAuthorized := 0 }
    match o.state with
    | .locked =>
      if o.cancelRequested then
        some { p with lastOutcome := some cause, state := .abandoned, finish := some .cancelled }
      else some (s.reopen { p with lastOutcome := some cause })
    | .settling => some { p with lastOutcome := some .declined, state := .closed, finish := some .voided }
    | .open | .printing | .closed | .abandoned => none

/-- The VOIDED report (R64). -/
def State.reportVoided (n : Nat) (s : State) : State :=
  s.reportTo n fun o =>
    let p := { o with valueAuthorized := 0 }
    match o.state with
    | .locked =>
      if o.cancelRequested then some { p with state := .abandoned, finish := some .cancelled }
      else some (s.reopen { p with tender := none, lastOutcome := some .short })
    | .settling => some { p with state := .closed, finish := some .voided }
    | .open | .printing | .closed | .abandoned => none

/-- The CAPTURED report (R64). -/
def State.reportCaptured (n amount : Nat) (s : State) : State :=
  s.reportTo n fun o =>
    match o.state with
    | .settling => some { o with valueCaptured := amount, state := .closed, finish := some .captured }
    | .open | .locked | .printing | .closed | .abandoned => none

/-- The UNRESOLVED report changes no field (R64). -/
def State.reportUnresolved (n : Nat) (s : State) : State :=
  s.reportTo n fun o =>
    match o.state with
    | .locked | .printing | .settling => some o
    | .open | .closed | .abandoned => none

/-- The WRITTEN_OFF report (R64). -/
def State.reportWrittenOff (n : Nat) (s : State) : State :=
  s.reportTo n fun o =>
    match o.state with
    | .locked => some { o with state := .abandoned, finish := some .writtenOff }
    | .settling => some { o with state := .closed, finish := some .writtenOff }
    | .open | .printing | .closed | .abandoned => none

/-- The SHORT report: an approval below the amount asked (R64). -/
def State.reportShort (n amount : Nat) (s : State) : State :=
  s.reportTo n fun o =>
    match o.state with
    | .locked =>
      if o.cancelRequested then some { o with valueAuthorized := amount }
      else some { o with valueAuthorized := amount, lastOutcome := some .short }
    | .open | .printing | .settling | .closed | .abandoned => none

end Sys2Proof.Machine
end

