-- ==== Sys2Proof/Machine/PaymentOps.lean ====
section
/-! DEFINITION. The Payment Line Interfaces' shared operations (chapter 4): the line record and its flag, the bytes of a tender
message both ways, the transmit queue, and the clearing of a line that leaves UP. -/

namespace Sys2Proof.Machine

/-! ### The line record -/

/-- The record of a line. -/
def State.line (i : Fin 4) (s : State) : PayLine := s.lines[i]

/-- The fields of a line that READ LINE reports (R77). -/
def PayLine.view (p : PayLine) : PayLine :=
  { p with
    txQueue := []
    txSent := 0
    txChar := .idle
    assembly := .hunting
    handOff := none
    rxFifo := []
    overrunMark := false
    dsrInput := false
    dsrFilter := none
    cts := false
    ctsWait := none
    lossCause := none }

/-- A line's record is stored; its change flag is set where a reported field has changed (R77). -/
def State.setLineRec (i : Fin 4) (p : PayLine) (s : State) : State :=
  { s with lines := s.lines.set i p }.setFlagIf (decide ((s.line i).view ≠ p.view)) (lineFlag i)

/-- A line's record is changed. -/
def State.modLine (i : Fin 4) (g : PayLine → PayLine) (s : State) : State := s.setLineRec i (g (s.line i))

/-- DTR is active exactly while the mode is present and enable is ON, and RESET_N is not asserted (section 4.1, R93). -/
def State.dtr (i : Fin 4) (s : State) : Bool :=
  !s.part.inReset && (s.line i).mode.isSome && (s.line i).enable

/-- RTS is active while the line is UP and its transmit queue holds a message (section 4.3, R85). -/
def State.rts (i : Fin 4) (s : State) : Bool :=
  !s.part.inReset && decide ((s.line i).state = .up) && !(s.line i).txQueue.isEmpty

/-! ### The bytes of a tender message (section 4.6, R87) -/

/-- n in so many ASCII decimal digits, most significant first. -/
def asciiDigits : Nat → Nat → List Byte
  | 0, _ => []
  | w + 1, n => asciiDigits w (n / 10) ++ [BitVec.ofNat 8 (0x30 + n % 10)]

/-- The kind letter of a message the part sends. -/
def OutKind.letter : OutKind → Byte
  | .sale => 0x53
  | .withdraw => 0x57
  | .capture => 0x43
  | .void => 0x56
  | .enquire => 0x51

/-- The fields of a message, from the values the tender holds (R87). -/
def Tender.fields (t : Tender) : OutKind → List Byte
  | .sale => asciiDigits 6 t.receiptCode ++ asciiDigits 6 t.amountRequested
  | .withdraw => []
  | .capture => t.reference.getD [] ++ asciiDigits 6 (t.amountToCapture.getD 0)
  | .void => t.reference.getD []
  | .enquire => []

/-- STX, the body, ETX and the check byte (section 4.6). -/
def messageBytes (body : List Byte) : List Byte := 0x02 :: (body ++ [0x03, xorBytes (body ++ [0x03])])

/-- The bytes of a message for a tender (R87). -/
def Tender.message (t : Tender) (number : Nat) (kind : OutKind) : List Byte :=
  messageBytes (kind.letter :: (asciiDigits 2 number ++ t.fields kind))

/-! ### Reading a received message (R89, R90) -/

/-- The value of an ASCII decimal digit. -/
def digitValue (b : Byte) : Option Nat :=
  if 0x30 ≤ b.toNat ∧ b.toNat ≤ 0x39 then some (b.toNat - 0x30) else none

/-- The number that ASCII decimal digits spell, most significant first. -/
def digitsValue : List Byte → Option Nat → Option Nat
  | [], acc => acc
  | b :: rest, acc =>
    match acc, digitValue b with
    | some n, some d => digitsValue rest (some (n * 10 + d))
    | _, _ => none

/-- A digit field of a message. -/
def readDigits (l : List Byte) : Option Nat := digitsValue l (some 0)

/-- A reference field of a message: characters from 0x20 to 0x7E. -/
def readReference (l : List Byte) : Option (List Byte) :=
  if l.all (fun b => decide (0x20 ≤ b.toNat) && decide (b.toNat ≤ 0x7E)) then some l else none

/-- The fields of a STATE: the status letter, the amount and the reference, all checked for shape; those its status does not carry
are dropped (R89, R90). -/
def readState (status : Byte) (amount reference : List Byte) : Option Reply :=
  match readDigits amount, readReference reference with
  | some a, some r =>
    if status = 0x4E then some (.stateNone .none)
    else if status = 0x50 then some .statePending
    else if status = 0x41 then some (.stateApproved a r)
    else if status = 0x43 then some (.stateCaptured a)
    else if status = 0x56 then some (.stateNone .voided)
    else if status = 0x44 then some (.stateNone .declined)
    else none
  | _, _ => none

/-- The reply that a kind letter and its fields spell, where they are well-formed (R89). -/
def readReply (kind : Byte) (fields : List Byte) : Option Reply :=
  if kind = 0x41 then
    if fields.length = 14 then
      match readDigits (fields.take 6), readReference (fields.drop 6) with
      | some a, some r => some (.approved a r)
      | _, _ => none
    else none
  else if kind = 0x44 then
    if fields.length = 2 then (readDigits fields).map .declined else none
  else if kind = 0x58 then if fields = [] then some .cancelled else none
  else if kind = 0x4B then if fields = [] then some .withdrawn else none
  else if kind = 0x50 then
    if fields.length = 6 then (readDigits fields).map .captured else none
  else if kind = 0x4F then if fields = [] then some .voided else none
  else if kind = 0x54 then
    if fields.length = 15 then
      match fields with
      | status :: rest => readState status (rest.take 6) (rest.drop 6)
      | [] => none
    else none
  else if kind = 0x42 then if fields = [] then some .busy else none
  else none

/-- A body judged: a kind letter, a tender number of two digits not above 31, and the fields of the kind (R89). -/
def readBody : List Byte → Option (Nat × Reply)
  | kind :: d1 :: d0 :: fields =>
    match readDigits [d1, d0], readReply kind fields with
    | some n, some r => if n < Config.tenderEntries then some (n, r) else none
    | _, _ => none
  | _ => none

/-- A completed message judged: not errored, its check byte right, and its body well-formed (R89). -/
def judgeMessage (body : List Byte) (check : Byte) (errored : Bool) : Option (Nat × Reply) :=
  if errored then none
  else if check = xorBytes (body ++ [0x03]) then readBody body
  else none

/-- A received message is thrown away and counted (R89). -/
def PayLine.countDiscard (p : PayLine) : PayLine := { p with discarded := saturate Config.counterLimit p.discarded }

/-- A well-formed message that the Tender Unit did not expect is counted (R90). -/
def PayLine.countUnexpected (p : PayLine) : PayLine := { p with unexpected := saturate Config.counterLimit p.unexpected }

/-! ### Characters (R83) -/

/-- The value of the data bits of a mode. -/
def LineMode.dataValue (m : LineMode) (b : Byte) : Byte := if m.dataBits = 7 then b &&& 0x7F else b

/-- The data bits of a character, least significant first (R83). -/
def LineMode.bits (m : LineMode) (b : Byte) : List Bool := (List.range m.dataBits).map fun k => b.getLsbD k

/-- The parity bit of a character, absent with parity NONE (R83). -/
def LineMode.parityBit (m : LineMode) (b : Byte) : Option Bool :=
  match m.parity with
  | .none => none
  | .even => some ((m.bits b).count true % 2 == 1)
  | .odd => some ((m.bits b).count true % 2 == 0)

/-- A received parity bit does not match (R83). -/
def LineMode.parityWrong (m : LineMode) (b : Byte) (received : Bool) : Bool :=
  match m.parityBit b with
  | none => false
  | some bit => received != bit

/-- The levels of a character on TXD, one for each bit time, true for high: the start bit, the data bits least significant first, the
parity bit, and the stop bits of the mode (R83). -/
def LineMode.charLevels (m : LineMode) (b : Byte) : List Bool :=
  false :: (m.bits b ++ (m.parityBit b).toList ++ List.replicate m.stopBits true)

/-! ### Sending (R85, R86) -/

/-- The levels of the next character of the message being sent, at the line's mode (R83, R85). -/
def PayLine.ownLevels (p : PayLine) : List Bool :=
  match p.mode, p.txQueue with
  | some m, k :: _ => m.charLevels (k.bytes.getD p.txSent 0)
  | _, _ => []

/-- The levels of the character being sent on TXD, from its start bit on; empty while TXD is at rest (R83, R82). -/
def PayLine.txd (p : PayLine) : List Bool :=
  match p.txChar with
  | .idle => []
  | .own => p.ownLevels
  | .orphan levels => levels

/-- TXD, at rest while RESET_N is asserted (R83, R93). -/
def State.txd (i : Fin 4) (s : State) : List Bool := if s.part.inReset then [] else (s.line i).txd

/-- The due character begins where CTS is active; otherwise the CTS wait timer runs (R85, R86). Nothing is due while no message is
held or a character is being sent. -/
def PayLine.beginDue (p : PayLine) : PayLine :=
  if p.state = .up ∧ p.txQueue ≠ [] ∧ p.txChar = .idle then
    if p.cts then { p with txChar := .own, ctsWait := none }
    else { p with ctsWait := some (p.ctsWait.getD Config.ctsWaitMs) }
  else p

/-- Why a message was not sent (R85). -/
inductive NotSent where
  | lineLost
  | refused
  | ctsLimit
  deriving DecidableEq, Repr

/-- Messages of a tender are no longer its current message (R99). -/
def supersede (tender : Nat) (q : List OutMessage) : List OutMessage :=
  q.map fun m => if m.tender = tender then { m with current := false } else m

/-- A line takes a message into its transmit queue, or says at once why not (R85). -/
def PayLine.hand (m : OutMessage) (p : PayLine) : PayLine × Option NotSent :=
  let q := supersede m.tender p.txQueue
  if p.state ≠ .up then ({ p with txQueue := q }, some .lineLost)
  else if Config.transmitQueueLimit ≤ p.txQueue.length then ({ p with txQueue := q }, some .refused)
  else (({ p with txQueue := q ++ [m] }).beginDue, none)

/-- What a line reports of a message it gives up (R82, R86). -/
structure GivenUp where
  kind    : OutKind
  tender  : Nat
  current : Bool
  begun   : Bool
  deriving DecidableEq, Repr

/-- The reports on the messages of the transmit queue when it is given up: only the first can have begun, with a character sent or
being sent (R82, R86; log entry 14). -/
def PayLine.givenUp (p : PayLine) : List GivenUp :=
  match p.txQueue with
  | [] => []
  | m :: rest =>
    { kind := m.kind, tender := m.tender, current := m.current, begun := decide (0 < p.txSent) || decide (p.txChar = .own) } ::
      rest.map fun k => { kind := k.kind, tender := k.tender, current := k.current, begun := false }

/-- The transmit queue is emptied; a character whose start bit has gone out is completed, so TXD goes on as it was (R82). -/
def PayLine.emptyQueue (p : PayLine) : PayLine :=
  { p with
    txQueue := []
    txSent := 0
    txChar := if p.txChar = .own then .orphan p.ownLevels else p.txChar
    ctsWait := none }

/-- The receive side of a line returns to HUNTING with an empty FIFO (R82, R79). -/
def PayLine.clearReceive (p : PayLine) : PayLine := { p with assembly := .hunting, rxFifo := [] }

end Sys2Proof.Machine
end

