-- ==== Sys2Proof/Machine/TenderOps.lean ====
section
/-! DEFINITION. The Tender Unit's shared operations (chapter 5): the tender record and its flag, the Exchange Queues, the running of an
exchange, the fates of messages, line trouble, and the Order Book's requests. What a reply does stands in Replies.lean. -/

namespace Sys2Proof.Machine

/-! ### The tender record -/

/-- The tender of a number, where it is present. -/
def State.tender (t : Nat) (s : State) : Option Tender := find t s.tenders.tenders

/-- A tender's record is stored; the flag of its order is set where a field has changed, and at creation (R94). -/
def State.setTender (t : Nat) (r : Tender) (s : State) : State :=
  { s with tenders := { s.tenders with tenders := put t r s.tenders.tenders } }.setFlagIf
    (decide (s.tender t ≠ some r)) (orderFlag r.order)

/-- A present tender's record is changed. -/
def State.modTender (t : Nat) (g : Tender → Tender) (s : State) : State :=
  match s.tender t with
  | none => s
  | some r => s.setTender t (g r)

/-- The Exchange Queue of a line. -/
def State.exchangeQueue (i : Fin 4) (s : State) : List Nat := s.tenders.queues[i]

/-- The Exchange Queue of a line is stored. -/
def State.setExchangeQueue (i : Fin 4) (q : List Nat) (s : State) : State :=
  { s with tenders := { s.tenders with queues := s.tenders.queues.set i q } }

/-- The view of a line's service is stored (section 5.1). -/
def State.setInService (i : Fin 4) (b : Bool) (s : State) : State :=
  { s with tenders := { s.tenders with inService := s.tenders.inService.set i b } }

/-- The tender in exchange on a line. -/
def State.exchanging (i : Fin 4) (s : State) : Option Nat :=
  (s.tenders.tenders.find? fun e => decide (e.2.line = i) && decide (e.2.exchange = .inExchange)).map (·.1)

/-- The fields of a tender that waits for its line: no phase and no reply deadline (R98). -/
def Tender.queued (r : Tender) : Tender := { r with exchange := .waitingLine, phase := none, replyDeadline := none }

/-- The fields of a tender at rest (R98). -/
def Tender.rest (r : Tender) : Tender := { r with exchange := .none, phase := none, replyDeadline := none }

/-- The tender joins the tail of its line's Exchange Queue (R97). -/
def State.joinTail (t : Nat) (r : Tender) (s : State) : State :=
  (s.setTender t r.queued).setExchangeQueue r.line (s.exchangeQueue r.line ++ [t])

/-- The tender joins the head of its line's Exchange Queue (R97). -/
def State.joinHead (t : Nat) (r : Tender) (s : State) : State :=
  (s.setTender t r.queued).setExchangeQueue r.line (t :: s.exchangeQueue r.line)

/-- A tender's entry is freed: it leaves its Exchange Queue if it stands there, and its order's flag is set (R94, R95). -/
def State.freeTender (t : Nat) (s : State) : State :=
  match s.tender t with
  | none => s
  | some r =>
    ({ s with tenders := { s.tenders with tenders := erase t s.tenders.tenders } }.setExchangeQueue r.line
      ((s.exchangeQueue r.line).filter fun k => k ≠ t)).setFlag (orderFlag r.order)

/-- The tender enters DECLINED: it is freed, and then DECLINED is reported with its cause (R95, R96). -/
def State.declineTender (t : Nat) (cause : TenderOutcome) (s : State) : State :=
  match s.tender t with
  | none => s
  | some r => (s.freeTender t).reportDeclined r.order cause

/-- The tender enters VOIDED: it is freed where a short approval was voided with no withdrawal asked for, and VOIDED is reported
(R95, R96). -/
def State.voidTender (t : Nat) (s : State) : State :=
  match s.tender t with
  | none => s
  | some r =>
    let s1 := s.setTender t { r.rest with money := .voided }
    (if r.shortApproval ∧ r.withdrawRequested = false then s1.freeTender t else s1).reportVoided r.order

/-- The tender is left unresolved: its exchange ends with exchange NONE, and UNRESOLVED is reported (R100, R96). -/
def State.leaveUnresolved (t : Nat) (s : State) : State :=
  match s.tender t with
  | none => s
  | some r => (s.setTender t { r.rest with unresolved := true }).reportUnresolved r.order

/-- The length of the reply deadline of a purpose, in ms (R100). -/
def State.replyLimitMs (k : OutKind) (s : State) : Nat :=
  match k with
  | .sale => seconds s.params.saleReplyLimit
  | .withdraw | .capture | .void | .enquire => seconds s.params.replyLimit

/-- The tender awaits its reply with a fresh deadline; starting or restarting it sets the flag (R94, R100). -/
def State.awaitReply (t : Nat) (r : Tender) (s : State) : State :=
  (s.setTender t { r with phase := some .awaiting, replyDeadline := some (s.replyLimitMs r.purpose) }).setFlag (orderFlag r.order)

/-! ### The running of an exchange (R98 to R100) -/

/-- What an exchange has to do next within one step. -/
inductive Work where
  /-- A message of this kind is handed to the line for the tender (R98). -/
  | hand (tender : Nat) (kind : OutKind)
  /-- The tender's message is unanswered (R100). -/
  | unanswered (tender : Nat)
  /-- The line takes its next exchange, if it can (R98). -/
  | next (line : Fin 4)
  deriving DecidableEq, Repr

/-- The work of an exchange is done, one piece after another. A message that is refused is unanswered at once, so one piece can bring
the next; each tender of a queue takes at most nine. -/
def State.drive : Nat → Work → State → State
  | 0, _, s => s
  | fuel + 1, .hand t k, s =>
    match s.tender t with
    | none => s
    | some r =>
      let s1 := s.setTender t { r with phase := some .sending, messageBegun := false, replyDeadline := none }
      let h := (s1.line r.line).hand { kind := k, tender := t, bytes := r.message t k, current := true }
      let s2 := s1.setLineRec r.line h.1
      match h.2 with
      | none | some .lineLost => s2
      | some .refused | some .ctsLimit => State.drive fuel (.unanswered t) s2
  | fuel + 1, .unanswered t, s =>
    match s.tender t with
    | none => s
    | some r =>
      match r.purpose with
      | .enquire =>
        let s1 := s.setTender t { r with enquiryCount := r.enquiryCount + 1 }
        if r.enquiryCount + 1 < Config.enquiryLimit then State.drive fuel (.hand t .enquire) s1
        else State.drive fuel (.next r.line) (s1.leaveUnresolved t)
      | .withdraw =>
        if r.saleSent then
          State.drive fuel (.hand t .enquire) (s.setTender t { r with pendingPurpose := some .withdraw, purpose := .enquire })
        else State.drive fuel (.next r.line) (s.declineTender t .withdrawn)
      | .sale | .capture | .void =>
        State.drive fuel (.hand t .enquire) (s.setTender t { r with pendingPurpose := some r.purpose, purpose := .enquire })
  | fuel + 1, .next i, s =>
    if s.tenders.inService[i] ∧ (s.exchanging i).isNone then
      match s.exchangeQueue i with
      | [] => s
      | t :: rest =>
        let s1 := s.setExchangeQueue i rest
        match s1.tender t with
        | none => State.drive fuel (.next i) s1
        | some r =>
          State.drive fuel (.hand t r.purpose) (s1.setTender t { r with exchange := .inExchange, phase := some .sending })
    else s

/-- The work of an exchange with enough pieces for every tender that waits. -/
def State.carry (w : Work) (s : State) : State :=
  s.drive (9 * ((s.tenders.queues.toList.map List.length).sum + 2)) w

/-- An enquiry begins within the exchange: the purpose becomes the pending purpose, and ENQUIRE is handed (R100, R107). -/
def State.beginEnquiry (t : Nat) (s : State) : State :=
  match s.tender t with
  | none => s
  | some r => (s.setTender t { r with pendingPurpose := some r.purpose, purpose := .enquire }).carry (.hand t .enquire)

/-! ### The fates of messages (R99) -/

/-- MESSAGE SENT is taken (R99). -/
def State.messageSent (i : Fin 4) (m : OutMessage) (s : State) : State :=
  match s.tender m.tender with
  | none => s
  | some r =>
    if r.exchange = .inExchange ∧ r.line = i then
      if m.current then
        s.awaitReply m.tender { r with messageBegun := true, saleSent := r.saleSent || decide (m.kind = .sale) }
      else if m.kind = .sale then s.setTender m.tender { r with saleSent := true }
      else s
    else s

/-- MESSAGE NOT SENT is taken (R99). -/
def State.messageNotSent (i : Fin 4) (cause : NotSent) (g : GivenUp) (s : State) : State :=
  match s.tender g.tender with
  | none => s
  | some r =>
    if r.exchange = .inExchange ∧ r.line = i ∧ (g.current ∨ g.kind = .sale) then
      let s1 := s.setTender g.tender
        { r with
          messageBegun := r.messageBegun || (g.begun && g.current)
          saleSent := r.saleSent || (g.begun && decide (g.kind = .sale)) }
      if g.current ∧ cause ≠ .lineLost then s1.carry (.unanswered g.tender) else s1
    else s

/-- The reports on every message given up, the current message first (R82, R86). -/
def State.messagesNotSent (i : Fin 4) (cause : NotSent) (l : List GivenUp) (s : State) : State :=
  l.foldl (fun t g => t.messageNotSent i cause g) s

/-! ### Line trouble (section 5.7) -/

/-- A tender whose exchange is ended by the loss of its line, or by a pin reset, is placed (R112, R118). -/
def State.placeLost (t : Nat) (r : Tender) (s : State) : State :=
  let enquire : Tender := { r with purpose := .enquire, pendingPurpose := some r.purpose }
  match r.purpose with
  | .sale => if r.saleSent then s.joinHead t enquire else s.joinHead t r
  | .withdraw => if r.saleSent then s.joinHead t enquire else s.declineTender t .withdrawn
  | .capture | .void => if r.messageBegun then s.joinHead t enquire else s.joinHead t r
  | .enquire => s.joinHead t r

/-- LINE LOST is taken, alike for every cause: the view becomes OUT_OF_SERVICE, and the tender in exchange is placed (R112). -/
def State.lineLost (i : Fin 4) (s : State) : State :=
  let s1 := s.setInService i false
  match s.exchanging i with
  | none => s1
  | some t =>
    match s1.tender t with
    | none => s1
    | some r => s1.placeLost t r

/-- An unresolved tender is taken up again (R113, R114). -/
def State.takeUp (t : Nat) (s : State) : State :=
  match s.tender t with
  | none => s
  | some r => s.joinTail t { r with unresolved := false, enquiryCount := 0, pendingAnswers := 0 }

/-- The unresolved tenders of a line, in ascending number. Each of them is at rest (R100), and so stands in no Exchange Queue (R97). -/
def State.unresolvedOn (i : Fin 4) (s : State) : List Nat :=
  (s.tenders.tenders.filter fun e =>
    decide (e.2.line = i) && e.2.unresolved && decide (e.2.exchange = .none)).map fun e => e.1

/-- LINE UP is taken: the view becomes IN_SERVICE, the line's unresolved tenders are taken up in ascending number, and the line takes
its next exchange (R113). -/
def State.lineUp (i : Fin 4) (s : State) : State :=
  let again := s.unresolvedOn i
  ((s.setInService i true).forEach again State.takeUp).carry (.next i)

/-! ### The Order Book's requests (R63) -/

/-- The lowest tender number that is free (R94). -/
def State.freeTenderNumber (s : State) : Option Nat := lowestFree s.tenders.tenders Config.tenderEntries 0

/-- The record of a new tender (R94). -/
def newTender (order : Nat) (station : Fin 4) (code amount : Nat) : Tender :=
  { order := order, line := station, receiptCode := code, money := .requested, exchange := .waitingLine, phase := none,
    purpose := .sale, pendingPurpose := none, amountRequested := amount, amountApproved := 0, amountToCapture := none,
    reference := none, reportedAmount := none, busyCount := 0, enquiryCount := 0, pendingAnswers := 0, unresolved := false,
    shortApproval := false, withdrawRequested := false, saleSent := false, messageBegun := false, replyDeadline := none }

/-- A sale is created at a free number; it joins its queue, and an idle line in service takes it at once (R94). -/
def State.createSale (t order : Nat) (station : Fin 4) (code amount : Nat) (s : State) : State :=
  (s.joinTail t (newTender order station code amount)).carry (.next station)

/-- A withdraw request (R104). -/
def State.withdrawTender (t : Nat) (s : State) : State :=
  match s.tender t with
  | none => s
  | some r0 =>
    let r := { r0 with withdrawRequested := true }
    let s1 := s.setTender t r
    if r.money = .requested then
      match r.purpose, r.exchange with
      | .sale, .waitingLine => (s1.declineTender t .withdrawn).carry (.next r.line)
      | .sale, .inExchange => (s1.setTender t { r with purpose := .withdraw }).carry (.hand t .withdraw)
      | .enquire, _ => if r.pendingPurpose = some .sale then s1.setTender t { r with pendingPurpose := some .withdraw } else s1
      | _, _ => s1
    else s1

/-- The tender joins the tail of its queue for a purpose queued afresh, with its counts reset (R97, R106). -/
def State.queueAfresh (t : Nat) (r : Tender) (k : OutKind) (s : State) : State :=
  (s.joinTail t { r with purpose := k, pendingPurpose := none, enquiryCount := 0, pendingAnswers := 0 }).carry (.next r.line)

/-- A capture request (R106). -/
def State.captureTender (t amount : Nat) (s : State) : State :=
  match s.tender t with
  | none => s.setCondition .moneyMismatch
  | some r =>
    if r.money = .approved ∧ r.exchange = .none then s.queueAfresh t { r with amountToCapture := some amount } .capture
    else s.setCondition .moneyMismatch

/-- A void request (R106). -/
def State.requestVoid (t : Nat) (s : State) : State :=
  match s.tender t with
  | none => s.setCondition .moneyMismatch
  | some r =>
    if r.money = .approved ∧ (r.purpose = .void ∨ r.pendingPurpose = some .void) then s
    else if r.money = .approved ∧ r.exchange = .none then s.queueAfresh t r .void
    else s.setCondition .moneyMismatch

/-! ### Events of a line that both units take part in -/

/-- LINE LOST is reported with its cause, which the line keeps, and the Tender Unit takes it at once (R82, R112; log entry 46). -/
def State.reportLost (i : Fin 4) (cause : LineLoss) (s : State) : State :=
  (s.modLine i fun p => { p with lossCause := some cause }).lineLost i

/-- A line leaves UP: its messages are given up and reported, its receive side is cleared, a message in the hand-off is thrown away,
and LINE LOST is reported with its cause (R82). The new state is set by the rule that makes the line leave. -/
def State.leaveUp (i : Fin 4) (cause : LineLoss) (s : State) : State :=
  let reports := (s.line i).givenUp
  let s1 := s.modLine i fun p => p.emptyQueue
  ((s1.messagesNotSent i .lineLost reports).modLine i fun p => { p.clearReceive with handOff := none }).reportLost i cause

/-- A mode and an enable are applied to a line; a line that is UP leaves UP with cause DOWN where it is disabled, and MODE otherwise
(R79). -/
def State.applyMode (i : Fin 4) (m : LineMode) (enable : Bool) (s : State) : State :=
  let p := s.line i
  let up := enable && p.dsr
  let s1 := if p.state = .up then (s.modLine i fun q => { q with state := .down }).leaveUp i (if enable then .mode else .down) else s
  let s2 := s1.modLine i fun q =>
    { q.clearReceive with
      mode := some m
      enable := enable
      state := if up then .up else .down
      dsrFilter := if q.mode.isNone ∧ q.dsrInput ≠ q.dsr then some Config.dsrFilterMs else q.dsrFilter }
  if up then s2.lineUp i else s2

end Sys2Proof.Machine
end

