-- ==== Sys2Proof/Machine/OrderOps.lean ====
section
/-! DEFINITION. The Order Book's shared operations (chapter 3): receipt codes, the Ready List, the entry into PRINTING, start claims,
the outcomes of copies, settlement, and the APPROVED report. -/

namespace Sys2Proof.Machine

/-! ### Receipt codes (R53) -/

/-- A present order holds the receipt code. -/
def State.codeHeld (c : Nat) (s : State) : Bool := s.book.orders.any fun e => e.2.receiptCode == c

/-- The first code from a candidate on, by the step, that no present order holds. -/
def State.stepCode : Nat → Nat → State → Nat
  | 0, c, _ => c
  | fuel + 1, c, s => if s.codeHeld c then State.stepCode fuel ((c + Config.receiptStep) % Config.receiptCodes) s else c

/-- The receipt code the next order receives (R53). -/
def State.nextCode (s : State) : Nat :=
  let first := match s.book.lastCode with
    | none => s.params.codeSeed
    | some c => (c + Config.receiptStep) % Config.receiptCodes
  s.stepCode s.book.orders.length first

/-! ### Lines and the Ready List (R51, R139, R140) -/

/-- The waiting count of a line (R51). -/
def OrderLine.waiting (l : OrderLine) : Nat := l.quantity - (l.delivered + l.failed + l.withdrawn + l.inFlight)

/-- The line of a number in an order. -/
def Order.line (k : Nat) (o : Order) : Option OrderLine := o.lines.find? fun l => l.number == k

/-- The order with a line of the same number replaced. -/
def Order.setLine (l : OrderLine) (o : Order) : Order :=
  { o with lines := o.lines.map fun m => if m.number = l.number then l else m }

/-- The sort key of a pair: admission sequence, then line number (R140). -/
def State.pairKey (s : State) (p : Nat × Nat) : Nat :=
  (((s.order p.1).bind (·.admission)).getD 0) * 256 + p.2

/-- A member inserted before the first of a greater key. -/
def insertByKey {α : Type} (key : α → Nat) (x : α) : List α → List α
  | [] => [x]
  | y :: rest => if key x < key y then x :: y :: rest else y :: insertByKey key x rest

/-- A pair is inserted at its sorted place; a pair already present changes nothing (R139). -/
def State.insertPair (p : Nat × Nat) (s : State) : State :=
  if s.ready.contains p then s else { s with ready := insertByKey s.pairKey p s.ready }

/-- A pair leaves the Ready List (R139). -/
def State.removePair (p : Nat × Nat) (s : State) : State := { s with ready := s.ready.filter fun q => q ≠ p }

/-- Every pair of an order leaves the Ready List (R139). -/
def State.removePairs (n : Nat) (s : State) : State := { s with ready := s.ready.filter fun q => q.1 ≠ n }

/-- A line of a PRINTING order is stored, and its pair kept: present exactly while copies wait (R51). -/
def State.setPrintingLine (n : Nat) (o : Order) (l : OrderLine) (s : State) : State :=
  let s1 := s.setOrder n (o.setLine l)
  if l.waiting = 0 then s1.removePair (n, l.number) else s1.insertPair (n, l.number)

/-- A line whose copies may no longer wait: its waiting copies are failed (R66, R69, R70). -/
def OrderLine.stop (cause : SheetCause) (l : OrderLine) : OrderLine :=
  { l with failed := l.failed + l.waiting, stopped := true, lastFault := some cause }

/-! ### Settlement (R71) -/

/-- Every copy of the order is resolved. -/
def Order.resolved (o : Order) : Bool := o.lines.all fun l => l.waiting == 0 && l.inFlight == 0

/-- The settlement test: a PRINTING order whose every copy is resolved enters SETTLING and its money is decided (R71). -/
def State.settle (n : Nat) (s : State) : State :=
  match s.order n with
  | none => s
  | some o =>
    if o.state = .printing ∧ o.resolved then
      match o.tender with
      | none => (s.setOrder n { o with state := .closed, finish := some .captured }).removePairs n
      | some t =>
        let s1 := (s.setOrder n { o with state := .settling }).removePairs n
        if 0 < o.valueDelivered then s1.captureTender t o.valueDelivered else s1.requestVoid t
    else s

/-! ### The entry into PRINTING (R66) -/

/-- The orders that hold an admission sequence receive 1, 2, 3 and so on in the order of their old sequences, and the counter the
highest number given (R66). -/
def State.renumber (s : State) : State :=
  let held := s.book.orders.filterMap fun e => e.2.admission.map fun a => (e.1, a)
  let s1 := s.forEach held fun e t =>
    t.modOrder e.1 fun o => { o with admission := some (1 + held.countP fun d => decide (d.2 < e.2)) }
  { s1 with book := { s1.book with admission := held.length } }

/-- The admission counter rises by one; at its top the orders are renumbered first (R66). -/
def State.raiseAdmission (s : State) : State :=
  let s1 := if s.book.admission = Config.admissionTop then s.renumber else s
  { s1 with book := { s1.book with admission := s1.book.admission + 1 } }

/-- The order enters PRINTING: its admission sequence, its damaged frames, its pairs, and the settlement test (R66). -/
def State.enterPrinting (n : Nat) (s : State) : State :=
  let s1 := s.raiseAdmission
  match s1.order n with
  | none => s1
  | some o =>
    let lines := o.lines.map fun l => if s1.frameReady l.frame then l else l.stop .storeError
    let s2 := s1.setOrder n
      { o with state := .printing, admission := some s1.book.admission, lines := lines, idleDeadline := none }
    (s2.forEach (lines.filter fun l => decide (0 < l.waiting)) fun l t => t.insertPair (n, l.number)).settle n

/-- The APPROVED report (R64). -/
def State.reportApproved (n amount : Nat) (s : State) : State :=
  match s.order n with
  | none => s.mismatch n
  | some o =>
    match o.state with
    | .locked =>
      let s1 := (s.setOrder n { o with valueAuthorized := amount }).setFlag (orderFlag n)
      if o.cancelRequested then
        match o.tender with
        | some t => s1.requestVoid t
        | none => s1.setCondition .moneyMismatch
      else s1.enterPrinting n
    | .open | .printing | .settling | .closed | .abandoned => s.mismatch n

/-! ### Copies (R67 to R70) -/

/-- A start claim for one copy of a line: the state after it where it is taken (R67). -/
def State.startClaim (n k : Nat) (s : State) : Option State :=
  match s.order n with
  | none => none
  | some o =>
    match o.line k with
    | none => none
    | some l =>
      if o.state = .printing ∧ 0 < l.waiting then some (s.setPrintingLine n o { l with inFlight := l.inFlight + 1 }) else none

/-- A DONE report for a line (R68); one that names no line of a PRINTING order with a copy in flight is not counted (R69; log entry
25). -/
def State.reportDone (n k : Nat) (s : State) : State :=
  match s.order n with
  | none => s.mismatch n
  | some o =>
    match o.line k with
    | none => s.mismatch n
    | some l =>
      if o.state = .printing ∧ 0 < l.inFlight then
        (s.setPrintingLine n { o with valueDelivered := o.valueDelivered + l.unitPrice }
          { l with inFlight := l.inFlight - 1, delivered := l.delivered + 1 }).settle n
      else s.mismatch n

/-- What a cause does with a copy, before the line and its order are looked at (R69). -/
inductive Fate where
  | returned
  | charged
  | failed
  | lineFailed
  deriving DecidableEq, Repr

/-- The fate of a copy by its cause (R69). -/
def SheetCause.fate : SheetCause → Fate
  | .mediaOut | .mediaMismatch => .returned
  | .jam | .dataError | .headHot | .aborted | .linkLost => .charged
  | .decodeError => .lineFailed
  | .storeError => .failed

/-- A returned copy is settled: failed on a stopped line, withdrawn in a cancelled order, and otherwise it waits again (R69). -/
def OrderLine.giveBack (cancelled consumes : Bool) (l : OrderLine) : OrderLine :=
  if l.stopped then { l with failed := l.failed + 1 }
  else if cancelled then { l with withdrawn := l.withdrawn + 1 }
  else if consumes then { l with reprintsUsed := l.reprintsUsed + 1 }
  else l

/-- The line after a FAULT report (R69). -/
def OrderLine.fault (o : Order) (cause : SheetCause) (l : OrderLine) : OrderLine :=
  let m := { l with inFlight := l.inFlight - 1, lastFault := some cause }
  match cause.fate with
  | .returned => m.giveBack o.cancelRequested false
  | .charged =>
    if l.reprintsUsed < o.reprintAllowance then m.giveBack o.cancelRequested true else { m with failed := m.failed + 1 }
  | .failed => { m with failed := m.failed + 1 }
  | .lineFailed => { m with failed := m.failed + 1 }.stop cause

/-- A FAULT report for a line (R69); one that names no line of a PRINTING order with a copy in flight is not counted (log entry
25). -/
def State.reportFault (n k : Nat) (cause : SheetCause) (s : State) : State :=
  match s.order n with
  | none => s.mismatch n
  | some o =>
    match o.line k with
    | none => s.mismatch n
    | some l =>
      if o.state = .printing ∧ 0 < l.inFlight then (s.setPrintingLine n o (l.fault o cause)).settle n else s.mismatch n

/-- The orders in PRINTING that cite a frame. -/
def State.printingWith (f : Nat) (s : State) : List Nat :=
  (s.book.orders.filter fun e => decide (e.2.state = .printing) && e.2.lines.any fun l => l.frame == f).map (·.1)

/-- The lines of a PRINTING order that cite a damaged frame fail their waiting copies (R70). -/
def State.stopLines (f : Nat) (n : Nat) (s : State) : State :=
  match s.order n with
  | none => s
  | some o =>
    let s1 := s.setOrder n { o with lines := o.lines.map fun l => if l.frame = f then l.stop .storeError else l }
    s1.forEach (o.lines.filter fun l => l.frame == f) fun l t => t.removePair (n, l.number)

/-- A frame damage notice is taken; the affected orders take the settlement test in an order chosen freely (R70; log entry 7). The frame is
the one that was damaged: the notice of a frame that has been retired meanwhile is gone (log entry 48). -/
def State.takeDamage (f : Nat) (s : State) : State :=
  let orders := s.printingWith f
  (s.forEach orders (State.stopLines f)).forEachFreely orders State.settle

end Sys2Proof.Machine
end

