-- ==== Sys2Proof/Machine/SheetOps.lean ====
section
/-! DEFINITION. The Dispatch Unit's and the Sheet Link Interfaces' shared operations (chapters 6 and 7): the Engine record and its flag,
raster channels, the end of a sheet, the arbiter, link states, reconciliation, and frames both ways. -/

namespace Sys2Proof.Machine

/-! ### The Engine record -/

/-- The Engine record of an engine. -/
def State.engine (e : Fin 3) (s : State) : Engine := s.engines[e]

/-- The fields of a sheet that READ ENGINE reports (section 7.4). -/
def Sheet.view (h : Sheet) : Sheet :=
  { h with frame := 0, media := 0, fit := .fill, payloadLength := 0, abortSent := false }

/-- The fields of an Engine record that READ ENGINE reports (R133, R135). -/
def Engine.view (r : Engine) : Engine :=
  { r with
    credit := 0
    sheets := r.sheets.map Sheet.view
    expressRun := 0
    expressPointer := 0
    standardPointer := 0
    presInput := false
    present := false
    presFilter := none
    helloTimer := none
    silenceTimer := none
    control := []
    sheetPath := none
    tx := .still
    rx := .off
    rxBuffer := []
    taken := none
    channel := Channel.reset }

/-- An Engine record is stored; its change flag is set where a reported field has changed (R133). -/
def State.setEngineRec (e : Fin 3) (r : Engine) (s : State) : State :=
  { s with engines := s.engines.set e r }.setFlagIf (decide ((s.engine e).view ≠ r.view)) (engineFlag e)

/-- An Engine record is changed. -/
def State.modEngine (e : Fin 3) (g : Engine → Engine) (s : State) : State := s.setEngineRec e (g (s.engine e))

/-- The raster channel of an engine is changed. -/
def State.modChannel (e : Fin 3) (g : Channel → Channel) (s : State) : State :=
  s.modEngine e fun r => { r with channel := g r.channel }

/-- The protocol errors count rises (R122). -/
def Engine.countProtocol (r : Engine) : Engine := { r with protocolErrors := saturate Config.counterLimit r.protocolErrors }

/-- The stray outcomes count rises (R131). -/
def Engine.countStray (r : Engine) : Engine := { r with strayOutcomes := saturate Config.counterLimit r.strayOutcomes }

/-- The sheet of a tag in the in-flight list. -/
def Engine.sheet (tag : Word16) (r : Engine) : Option Sheet := r.sheets.find? fun h => h.tag == tag

/-- The STREAMING sheet of an engine (R147). -/
def Engine.streaming (r : Engine) : Option Sheet := r.sheets.find? fun h => decide (h.state = .streaming)

/-- The tags of the sheets in a state, in list order. -/
def Engine.tagsIn (st : SheetState) (r : Engine) : List Word16 := (r.sheets.filter fun h => decide (h.state = st)).map (·.tag)

/-- The first open tag: that of the head of the in-flight list, or the next tag (R124). -/
def Engine.firstOpen (r : Engine) : Word16 := (r.sheets.head?.map (·.tag)).getD r.nextTag

/-! ### Frames the part sends (section 6.1.1) -/

/-- The fit mode code of SHEET START. -/
def Fit.linkCode : Fit → Nat
  | .fill => 1
  | .fit => 2
  | .border => 3

/-- The kind byte and payload of a frame the part sends. -/
def PartFrame.raw : PartFrame → RawFrame
  | .hello nextTag firstOpen => ⟨0x01, word2 nextTag ++ word2 firstOpen⟩
  | .sheetStart tag media fitMode length => ⟨0x02, word2 tag ++ byte1 media ++ byte1 fitMode.linkCode ++ byte4 length⟩
  | .sheetData tag data => ⟨0x03, word2 tag ++ data⟩
  | .sheetEnd tag crc => ⟨0x04, word2 tag ++ word4 crc⟩
  | .sheetAbort tag => ⟨0x05, word2 tag⟩

/-- The bytes of a frame on the sheet link: mark pair, kind, length, payload and CRC (section 6.1.1). -/
def RawFrame.bytes (f : RawFrame) : List Byte :=
  let body := f.kind :: (byte2 f.payload.length ++ f.payload)
  0xA5 :: 0x5A :: (body ++ word2 (sheetLinkCrc body))

/-- A SHEET ABORT is handed to the control queue: queued in ONLINE while the queue has room, and dropped otherwise (R119). -/
def Engine.handAbort (tag : Word16) (r : Engine) : Engine :=
  if r.link = .online ∧ r.control.length < Config.controlQueueLimit then { r with control := r.control ++ [.abort tag] } else r

/-- A HELLO is handed to the control queue, unless one waits there (R124). -/
def Engine.handHello (r : Engine) : Engine :=
  if r.control.contains .hello then r
  else if r.control.length < Config.controlQueueLimit then { r with control := r.control ++ [.hello] }
  else r

/-! ### Raster channels (section 7.5) -/

/-- The channel has an access at the store port that is being carried out. -/
def State.rasterBusy (e : Fin 3) (s : State) : Bool :=
  match s.store.port.busy with
  | some a => a.isRaster e
  | none => false

/-- The channel has an access at the store port, waiting or in progress (R149). -/
def State.rasterAsked (e : Fin 3) (s : State) : Bool := s.rasterBusy e || s.store.port.waiting.any (Access.isRaster e)

/-- The frame of a channel is DAMAGED. -/
def State.frameDamaged (n : Nat) (s : State) : Bool :=
  match s.frame n with
  | some f => decide (f.state = .damaged)
  | none => true

/-- The length of the burst at a position of a page (R149). -/
def burstLength (length bytesRead : Nat) : Nat :=
  min Config.burstBytes (min (Config.pageBytes - bytesRead % Config.pageBytes) (length - bytesRead))

/-- The channel asks for a burst of its reading page, or of the page it begins now (R149). The flag says that a page boundary found the
frame DAMAGED. -/
def State.askRaster (e : Fin 3) (s : State) : State × Bool :=
  let c := (s.engine e).channel
  if c.phase = .reading ∧ c.buffers.length < 2 ∧ c.bytesRead < c.length ∧ s.rasterAsked e = false then
    let burst (p : Page) : Access := .raster e p (c.bytesRead % Config.pageBytes) (burstLength c.length c.bytesRead)
    match c.readingPage with
    | some p => (s.askPort (burst p), false)
    | none =>
      if 1 ≤ c.pageIndex ∧ s.frameDamaged c.frame then (s, true)
      else
        match (s.frame c.frame).bind fun f => f.extent[c.pageIndex]? with
        | none => (s, false)
        | some p => (((s.raiseReader p).modChannel e fun d => { d with readingPage := some p }).askPort (burst p), false)
  else (s, false)

/-- The first n bytes leave the burst buffers, the older first; a buffer becomes empty with its last byte (R150). -/
def takeBuffered : Nat → List (List Byte) → List Byte × List (List Byte)
  | _, [] => ([], [])
  | n, b :: rest =>
    if n < b.length then (b.take n, b.drop n :: rest)
    else
      let r := takeBuffered (n - b.length) rest
      (b ++ r.1, r.2)

/-- The payload bytes of the next SHEET DATA frame (R150). -/
def Channel.nextData (c : Channel) : Nat := min Config.sheetDataBytes (c.length - c.bytesHanded)

/-- The channel hands its next frame where the sheet path is free: SHEET DATA when all its bytes are held, and SHEET END after the last
check (R150, R151). The flag says that the last check found the frame DAMAGED. -/
def State.handFrame (e : Fin 3) (s : State) : State × Bool :=
  let r := s.engine e
  let c := r.channel
  match c.sheet, r.sheetPath with
  | some tag, none =>
    if c.phase = .reading ∨ c.phase = .finishing then
      if c.endDue then
        (s.setEngineRec e { r with channel := { c with endDue := false }, sheetPath := some (.sheetEnd tag (crc32Final c.crc)) }, false)
      else
        let n := c.nextData
        if 0 < n ∧ n ≤ (c.buffers.map List.length).sum then
          let took := takeBuffered n c.buffers
          let d := { c with bytesHanded := c.bytesHanded + n, buffers := took.2, crc := crc32Update c.crc took.1 }
          let s1 := s.setEngineRec e { r with channel := d, sheetPath := some (.sheetData tag took.1) }
          if d.bytesHanded = c.length then
            if s1.frameDamaged c.frame then (s1, true) else (s1.modChannel e fun x => { x with endDue := true }, false)
          else (s1, false)
        else (s, false)
    else (s, false)
  | _, _ => (s, false)

/-- The channel goes on: it hands what it can and asks for what it needs. The flag says that the sheet is to end as
FAULT(STORE_ERROR). -/
def State.pump (e : Fin 3) (s : State) : State × Bool :=
  let a := s.handFrame e
  if a.2 then a else a.1.askRaster e

/-- A channel that is IDLE begins a sheet: the pin claim, and SHEET START on the sheet path (R148). The flag says that the pin claim was
refused. -/
def State.beginSheet (e : Fin 3) (h : Sheet) (s : State) : State × Bool :=
  match s.frame h.frame with
  | some f =>
    if f.state = .ready then
      let s1 := (s.raisePin h.frame).modEngine e fun r =>
        { r with
          channel := { Channel.reset with phase := .reading, sheet := some h.tag, frame := h.frame, length := h.payloadLength }
          sheetPath := some (.sheetStart h.tag h.media h.fit h.payloadLength) }
      ((s1.pump e).1, false)
    else (s, true)
  | none => (s, true)

/-- A STOPPING channel with no burst in progress lowers its reader count, unpins its frame and returns to IDLE (R153 step 3). A sheet
that waits for it is begun afterwards. -/
def State.unwindChannel (e : Fin 3) (s : State) : State :=
  let c := (s.engine e).channel
  if c.phase = .stopping ∧ s.rasterBusy e = false then
    let s1 := match c.readingPage with
      | some p => s.lowerReader p
      | none => s
    (s1.modChannel e fun _ => { Channel.reset with sheetWaits := c.sheetWaits }).lowerPin c.frame
  else s

/-- The channel is sent into STOPPING: an access that waits is withdrawn, and buffers and sheet path frames not begun are dropped
(R153, R119). -/
def State.stopChannel (e : Fin 3) (s : State) : State :=
  ((s.withdrawWaiting (Access.isRaster e)).modEngine e fun r =>
    { r with sheetPath := none, channel := { r.channel with phase := .stopping, buffers := [], endDue := false } }).unwindChannel e

/-! ### Outcomes (section 7.6) -/

/-- The outcome of a sheet (R154). -/
inductive SheetOutcome where
  | done
  | fault (cause : SheetCause)
  deriving DecidableEq, Repr

/-- The outcome is reported to the Order Book (R154 step 3). -/
def State.reportOutcome (h : Sheet) (o : SheetOutcome) (s : State) : State :=
  match o with
  | .done => s.reportDone h.order h.line
  | .fault cause => s.reportFault h.order h.line cause

/-- An outcome is taken for one sheet: it leaves the list, its channel stops or is rid of it, and the Order Book takes the report (R154
steps 1 to 3). For a store error R152 lists STOPPING (its step 4) after the report (its step 3), and R154 the channel (its step 2) before it
(its step 3); that the order of R154 is followed for store errors too is the model's choice (log entry 51). That a tag given again after
the tags have wrapped names the older of two sheets that hold it is the model's choice as well (log entry 52). -/
def State.closeSheet (e : Fin 3) (tag : Word16) (o : SheetOutcome) (s : State) : State :=
  match (s.engine e).sheet tag with
  | none => s
  | some h =>
    let s1 := s.modEngine e fun r => { r with sheets := r.sheets.eraseP fun g => g.tag == tag }
    let s2 :=
      if h.state = .streaming then
        if (s1.engine e).channel.sheet = some tag ∧ (s1.engine e).channel.phase ≠ .stopping then s1.stopChannel e
        else s1.modChannel e fun c => { c with sheetWaits := false }
      else s1
    s2.reportOutcome h o

/-! ### Eligibility and the arbiter (sections 7.2 and 7.3) -/

/-- No hold reason stands. -/
def Holds.clear (h : Holds) : Bool := !(h.host || h.thermalHigh || h.thermalStale || h.mediaOut)

/-- The engine is eligible (R141). -/
def Engine.eligible (r : Engine) : Bool :=
  decide (r.link = .online) && r.enabled && r.holds.clear && decide (r.sheets.length < Config.sheetsInFlight) &&
    r.streaming.isNone

/-- What the arbiter needs of a candidate (R143). -/
structure Candidate where
  order    : Nat
  line     : OrderLine
  station  : Fin 4
  priority : Priority
  deriving DecidableEq, Repr

/-- The candidate a pair is for an engine, if it is one (R143). -/
def State.candidate (r : Engine) (p : Nat × Nat) (s : State) : Option Candidate :=
  match s.order p.1 with
  | none => none
  | some o =>
    match o.line p.2 with
    | none => none
    | some l =>
      if s.book.prices[l.product].media = r.media ∧ r.stationMask.getLsbD o.station = true ∧ s.frameReady l.frame = true then
        some { order := p.1, line := l, station := o.station, priority := o.priority }
      else none

/-- The engine's candidates, in Ready List order (R143). -/
def State.candidates (e : Fin 3) (s : State) : List Candidate := s.ready.filterMap fun p => s.candidate (s.engine e) p

/-- The priority level of a grant (R144). -/
def chooseLevel (run : Nat) (express standard : Bool) : Priority :=
  if !standard then .express
  else if !express then .standard
  else if run < Config.expressRunLimit then .express
  else .standard

/-- The arbiter pointer of a level (R145). -/
def Engine.pointer (r : Engine) : Priority → Fin 4
  | .express => r.expressPointer
  | .standard => r.standardPointer

/-- The candidates of one station. -/
def atStation (l : List Candidate) (station : Fin 4) : Option Candidate := l.find? fun c => decide (c.station = station)

/-- The line chosen within a level: the stations are searched in round-robin order from the one after the pointer, and the first
candidate of the first station that has one is chosen (R145). -/
def chooseLine (pointer : Fin 4) (l : List Candidate) : Option Candidate :=
  (atStation l (pointer + 1)).or ((atStation l (pointer + 2)).or ((atStation l (pointer + 3)).or (atStation l pointer)))

/-- The result of an arbiter run: the candidate granted, and whether a standard candidate was present (R143 to R145). -/
def State.arbitrate (e : Fin 3) (s : State) : Option (Candidate × Bool) :=
  let all := s.candidates e
  let r := s.engine e
  let standard := all.any fun c => decide (c.priority = .standard)
  let level := chooseLevel r.expressRun (all.any fun c => decide (c.priority = .express)) standard
  (chooseLine (r.pointer level) (all.filter fun c => decide (c.priority = level))).map fun c => (c, standard)

/-- The run count and the pointers after a grant is taken (R144, R145). -/
def Engine.grant (c : Candidate) (standard : Bool) (r : Engine) : Engine :=
  match c.priority with
  | .express => { r with expressRun := if standard then r.expressRun + 1 else 0, expressPointer := c.station }
  | .standard => { r with expressRun := 0, standardPointer := c.station }

/-- The sheet of a taken claim (R146, section 7.4). -/
def State.newSheet (e : Fin 3) (c : Candidate) (s : State) : Sheet :=
  { tag := (s.engine e).nextTag, order := c.order, line := c.line.number, frame := c.line.frame, state := .streaming,
    media := s.book.prices[c.line.product].media, fit := c.line.fit,
    payloadLength := ((s.frame c.line.frame).map (·.byteLength)).getD 0, abortSent := false }

/-- A taken claim starts a sheet: the arbiter moves, the sheet joins the list, and it is handed to the channel (R146, R148). The flag
says that the pin claim was refused. -/
def State.startSheet (e : Fin 3) (c : Candidate) (standard : Bool) (s : State) : State × Bool :=
  let h := s.newSheet e c
  let s1 := s.modEngine e fun r => { (r.grant c standard) with nextTag := r.nextTag + 1, sheets := r.sheets ++ [h] }
  if (s1.engine e).channel.phase = .idle then s1.beginSheet e h
  else (s1.modChannel e fun x => { x with sheetWaits := true }, false)

/-- An engine's arbiter runs while the engine is eligible and finds a candidate; a refused claim makes it run again (R141, R146). -/
def State.runArbiter : Nat → Fin 3 → State → State
  | 0, _, s => s
  | fuel + 1, e, s =>
    if (s.engine e).eligible then
      match s.arbitrate e with
      | none => s
      | some (c, standard) =>
        match s.startClaim c.order c.line.number with
        | none => State.runArbiter fuel e s
        | some t =>
          let r := t.startSheet e c standard
          if r.2 then State.runArbiter fuel e (r.1.closeSheet e (s.engine e).nextTag (.fault .storeError)) else r.1
    else s

/-- The engines whose arbiter can grant now. -/
def State.hungry (s : State) : List (Fin 3) :=
  [0, 1, 2].filter fun e => (s.engine e).eligible && (s.arbitrate e).isSome

/-- The arbiters of the eligible engines run, in an order chosen freely (R141, R146; log entries 7 and 13). -/
def State.dispatch (s : State) : State :=
  s.forEachFreely s.hungry fun e t => t.runArbiter (t.ready.length + 1) e

/-- An outcome is taken for one sheet, and arbitration follows (R154). -/
def State.endSheet (e : Fin 3) (tag : Word16) (o : SheetOutcome) (s : State) : State := (s.closeSheet e tag o).dispatch

/-- Outcomes are taken for several sheets one after another (R154). -/
def State.endSheets (e : Fin 3) (tags : List Word16) (o : SheetOutcome) (s : State) : State :=
  tags.foldl (fun t tag => t.endSheet e tag o) s

/-- A sheet ends for a store error: its frames not begun are dropped, SHEET ABORT is handed, and the sheet ends (R152). -/
def State.storeErrorEnd (e : Fin 3) (s : State) : State :=
  match (s.engine e).channel.sheet with
  | none => s
  | some tag =>
    (s.modEngine e fun r => { r with sheetPath := none }.handAbort tag).endSheet e tag (.fault .storeError)

/-- The channel goes on, and its sheet ends where the frame was found DAMAGED (R149, R151, R152). -/
def State.runChannel (e : Fin 3) (s : State) : State :=
  let r := s.pump e
  if r.2 then r.1.storeErrorEnd e else r.1

/-- A channel that has stopped begins the sheet that waits for it (R148, R153). -/
def State.beginWaiting (e : Fin 3) (s : State) : State :=
  let r := s.engine e
  if r.channel.phase = .idle ∧ r.channel.sheetWaits then
    let s1 := s.modChannel e fun c => { c with sheetWaits := false }
    match r.streaming with
    | none => s1
    | some h =>
      let b := s1.beginSheet e h
      if b.2 then b.1.endSheet e h.tag (.fault .storeError) else b.1
  else s

/-! ### Thermal cutoff (R156) -/

/-- A thermal cutoff acts on one sheet. -/
def State.cutSheet (e : Fin 3) (tag : Word16) (s : State) : State :=
  match (s.engine e).sheet tag with
  | none => s
  | some h =>
    match h.state with
    | .streaming =>
      (s.modEngine e fun r => { r with sheetPath := none }.handAbort tag).endSheet e tag (.fault .aborted)
    | .sent =>
      if h.abortSent then s
      else
        s.modEngine e fun r =>
          ({ r with sheets := r.sheets.map fun (g : Sheet) => if g.tag = tag then { g with abortSent := true } else g } :
            Engine).handAbort tag
    | .unknown => s

/-- A thermal cutoff is taken for an engine whose link is ONLINE (R156). R156 gives no order among the sheets of one in-flight list, and so
none between two SHEET ABORTs in the control queue; that it acts in list order is the model's choice (log entry 50). -/
def State.cutoff (e : Fin 3) (s : State) : State :=
  if (s.engine e).link = .online then ((s.engine e).sheets.map (·.tag)).foldl (fun t tag => t.cutSheet e tag) s else s

/-! ### Link states (section 6.2) -/

/-- The entry to HUNTING (R124). -/
def Engine.enterHunting (r : Engine) : Engine :=
  { r with link := .hunting, tx := .mark, rx := .hunt, helloTimer := some Config.helloMs, head := none }.handHello

/-- The entry to ABSENT (R119, R123). That a HELLO in progress is cut at once is the model's choice: R119 lets only leaving ONLINE cut a
frame that has begun, and holds SCLK still in ABSENT (log entry 49). -/
def Engine.enterAbsent (r : Engine) : Engine :=
  { r with link := .absent, tx := .still, rx := .off, helloTimer := none, control := [], rxBuffer := [], taken := none }

/-- The SENT sheets become UNKNOWN, and the relink timer starts if there is one (R125 steps 4 and 5). -/
def Engine.loseSheets (relink : Nat) (r : Engine) : Engine :=
  { r with
    sheets := r.sheets.map fun h => if h.state = .sent then { h with state := .unknown } else h
    relinkTimer := if r.sheets.any fun h => decide (h.state = .sent) then some relink else r.relinkTimer }

/-- The link leaves ONLINE (R125). The link state is changed first, so that no arbiter finds the engine eligible meanwhile (log entry
13). -/
def State.leaveOnline (e : Fin 3) (cause : LinkLoss) (s : State) : State :=
  let target : EngineLink := if cause = .absent then .absent else .hunting
  let s1 := s.modEngine e fun r =>
    { r with link := target, lastLoss := some cause, tx := .mark, control := [], sheetPath := none, credit := 0, rxBuffer := [],
             taken := none }
  let s2 := match (s1.engine e).streaming with
    | none => s1
    | some h => s1.closeSheet e h.tag (.fault .linkLost)
  let s3 := s2.modEngine e fun r =>
    let q := { (r.loseSheets (seconds s.params.relinkLimit)) with silenceTimer := none, head := none }
    if cause = .absent then q.enterAbsent else q.enterHunting
  s3.dispatch

/-- A receive fault (R121). -/
def State.receiveFault (e : Fin 3) (s : State) : State :=
  let s1 := s.modEngine e fun r => { r with rx := .hunt, receiveFaults := saturate Config.counterLimit r.receiveFaults }
  let r := s1.engine e
  if r.link = .online ∧ (r.sheets.any fun h => decide (h.state ≠ .unknown)) then s1.leaveOnline e .receiveFault else s1

/-! ### Facts and reconciliation (R129, R130) -/

/-- Tag a is at or before tag b in serial order (Conventions). -/
def atOrBefore (a b : Word16) : Bool := decide ((b - a).toNat < 32768)

/-- The window of R129: from F - 1 to N - 1. -/
def inWindow (first next tag : Word16) : Bool := atOrBefore (first - 1) tag && atOrBefore tag (next - 1)

/-- What a READY or a STATUS tells of the engine (R130). -/
structure Facts where
  media      : Byte
  sheets     : Word16
  lastTag    : Word16
  bufferFree : Byte
  head       : Option HeadState
  deriving DecidableEq, Repr

/-- The facts are recorded, with the buffer credit and the MEDIA_OUT hold (R130, R132). -/
def Engine.record (f : Facts) (r : Engine) : Engine :=
  { r with
    media := f.media.toNat
    sheetsRemaining := f.sheets.toNat
    lastCompleted := some f.lastTag
    bufferFree := f.bufferFree.toNat
    credit := f.bufferFree.toNat
    head := f.head.or r.head
    holds := { r.holds with mediaOut := decide (f.sheets = 0) } }

/-- Reconciliation of the sheets concerned against a last completed tag, with F and N as they stood when the READY was taken (R129). -/
def State.reconcile (e : Fin 3) (concerned : SheetState) (first next tag : Word16) (s : State) : State :=
  let tags := (s.engine e).tagsIn concerned
  if inWindow first next tag then
    (s.endSheets e (tags.filter fun t => atOrBefore t tag) .done).endSheets e (tags.filter fun t => !atOrBefore t tag)
      (.fault .linkLost)
  else (s.modEngine e Engine.countProtocol).endSheets e tags (.fault .linkLost)

/-- A READY taken in HUNTING brings the link ONLINE (R124). -/
def State.readyInHunting (e : Fin 3) (f : Facts) (s : State) : State :=
  let r := s.engine e
  let s1 := s.modEngine e fun q => { q with helloTimer := none, control := q.control.filter fun c => c ≠ ControlFrame.hello }.record f
  let s2 := (s1.reconcile e .unknown r.firstOpen r.nextTag f.lastTag).modEngine e fun q => { q with relinkTimer := none }
  (s2.modEngine e fun q => { q with link := .online, silenceTimer := some Config.silenceMs }).dispatch

/-- A READY taken in ONLINE is an engine restart (R127). -/
def State.readyInOnline (e : Fin 3) (f : Facts) (s : State) : State :=
  let r := s.engine e
  let s1 := match r.streaming with
    | none => s
    | some h => (s.modEngine e fun q => { q with sheetPath := none }).endSheet e h.tag (.fault .linkLost)
  let s2 := s1.reconcile e .sent r.firstOpen r.nextTag f.lastTag
  (s2.modEngine e fun q => { (q.record f) with silenceTimer := some Config.silenceMs }).dispatch

/-- A STATUS taken in ONLINE: the facts, and the SENT sheets its last completed tag passes (R130). That the facts are recorded, the
MEDIA_OUT hold among them, and the protocol error is counted before the sheets end is the model's choice: the rule orders neither (log
entry 44). -/
def State.statusInOnline (e : Fin 3) (f : Facts) (s : State) : State :=
  let r := s.engine e
  let s1 := s.modEngine e (Engine.record f)
  if inWindow r.firstOpen r.nextTag f.lastTag then
    let passed := r.sheets.filter fun h => decide (h.state ≠ .unknown) && atOrBefore h.tag f.lastTag
    let s2 := if passed = [] then s1 else s1.modEngine e Engine.countProtocol
    (s2.endSheets e ((passed.filter fun h => decide (h.state = .sent)).map (·.tag)) .done).dispatch
  else (s1.modEngine e Engine.countProtocol).dispatch

/-- A SHEET DONE taken in ONLINE (R131). -/
def State.takeDone (e : Fin 3) (tag : Word16) (s : State) : State :=
  match (s.engine e).sheet tag with
  | none => s.modEngine e Engine.countStray
  | some h =>
    if h.state = .streaming then s.modEngine e Engine.countProtocol else s.endSheet e tag .done

/-- A SHEET FAULT taken in ONLINE (R131). -/
def State.takeFault (e : Fin 3) (tag : Word16) (cause : SheetCause) (s : State) : State :=
  match (s.engine e).sheet tag with
  | none => s.modEngine e Engine.countStray
  | some _ => s.endSheet e tag (.fault cause)

/-! ### Frames from the engine (R120 to R122) -/

/-- A well-formed frame of an engine. -/
inductive EngineFrame where
  | ready (f : Facts)
  | status (f : Facts)
  | done (tag : Word16)
  | fault (tag : Word16) (cause : SheetCause)
  deriving DecidableEq, Repr

/-- The cause of a SHEET FAULT (section 6.1.1). -/
def toCause (b : Byte) : Option SheetCause :=
  match b.toNat with
  | 1 => some .jam
  | 2 => some .dataError
  | 3 => some .headHot
  | 4 => some .aborted
  | 5 => some .mediaOut
  | 6 => some .mediaMismatch
  | 7 => some .decodeError
  | _ => none

/-- The head state of a STATUS (section 6.1.1). -/
def toHead (b : Byte) : Option HeadState :=
  match b.toNat with
  | 0 => some .idle
  | 1 => some .warming
  | 2 => some .printing
  | 3 => some .cooling
  | 4 => some .fault
  | _ => none

/-- A frame judged: the frame it is, where it is well-formed (R122). -/
def RawFrame.judge (f : RawFrame) : Option EngineFrame :=
  match f.kind.toNat, f.payload with
  | 0x11, [m, s1, s0, l1, l0, b] =>
    if m.toNat ≤ 7 ∧ b.toNat ≤ 2 then some (.ready ⟨m, toWord16 s1 s0, toWord16 l1 l0, b, none⟩) else none
  | 0x12, [m, s1, s0, l1, l0, b, h] =>
    match toHead h with
    | some head =>
      if m.toNat ≤ 7 ∧ b.toNat ≤ 2 then some (.status ⟨m, toWord16 s1 s0, toWord16 l1 l0, b, some head⟩) else none
    | none => none
  | 0x13, [t1, t0] => some (.done (toWord16 t1 t0))
  | 0x14, [t1, t0, c] => (toCause c).map fun cause => .fault (toWord16 t1 t0) cause
  | _, _ => none

/-- The frame acts: in HUNTING a READY alone, in ONLINE every frame (R124, R127, R130, R131). -/
def State.actFrame (e : Fin 3) (f : EngineFrame) (s : State) : State :=
  match (s.engine e).link, f with
  | .hunting, .ready x => s.readyInHunting e x
  | .online, .ready x => s.readyInOnline e x
  | .online, .status x => s.statusInOnline e x
  | .online, .done tag => s.takeDone e tag
  | .online, .fault tag cause => s.takeFault e tag cause
  | _, _ => s

/-- A frame is taken, which the engine notes; in ONLINE it restarts the silence timer (R122, R126). -/
def Engine.hear (f : RawFrame) (r : Engine) : Engine :=
  { r with taken := some f, silenceTimer := if r.link = .online then some Config.silenceMs else r.silenceTimer }

/-- A frame is taken and acts at once; one that is not well-formed is counted and dropped (R122). -/
def State.takeFrame (e : Fin 3) (f : RawFrame) (s : State) : State :=
  let s1 := s.modEngine e (Engine.hear f)
  match f.judge with
  | none => s1.modEngine e Engine.countProtocol
  | some x => s1.actFrame e x

/-- The head of the receive buffer is taken and acts at once (R121, R122). -/
def State.takeHead (e : Fin 3) (f : RawFrame) (rest : List RawFrame) (s : State) : State :=
  (s.modEngine e fun q => { q with rxBuffer := rest }).takeFrame e f

/-- A command that names an engine's frame takes it from the head of the receive buffer, or, where the buffer holds nothing, stands for the
frame's arrival and taking (log entry 2). -/
def State.deliver (e : Fin 3) (f : RawFrame) (s : State) : State :=
  let r := s.engine e
  if s.running = false ∨ r.link = .absent then s
  else
    match r.rxBuffer with
    | g :: rest => if g = f then s.takeHead e f rest else s
    | [] => (s.modEngine e fun q => { q with rx := .markDue }).takeFrame e f

end Sys2Proof.Machine
end

