-- ==== Sys2Proof/Machine/Engines.lean ====
section
/-! DEFINITION. The commands of print engines, the sheet link and sheet dispatch (chapters 6 and 7). -/

namespace Sys2Proof.Machine

/-! ### Presence (R123) -/

/-- PRES_N takes a level; once it is sampled, a level that differs from the qualified presence starts the filter (R123, R136). -/
def Engine.presTakes (samples active : Bool) (r : Engine) : Engine :=
  if samples then { r with presInput := active, presFilter := if active = r.present then none else some Config.presenceMs }
  else { r with presInput := active }

/-- PRESENCE_CHANGE (R123). -/
def execPresenceChange (engine : Fin 3) (active : Bool) (s : State) : Host.Outcome State Fault Refusal :=
  .next (s.whenever ((s.engine engine).presInput != active) fun t => t.modEngine engine (Engine.presTakes t.running active))

/-- The qualified presence changes (R123). -/
def State.presenceQualified (e : Fin 3) (s : State) : State :=
  let active := (s.engine e).presInput
  let s1 := s.modEngine e fun r => { r with present := active, presFilter := none }
  match active, (s1.engine e).link with
  | true, .absent => s1.modEngine e Engine.enterHunting
  | false, .hunting => s1.modEngine e Engine.enterAbsent
  | false, .online => s1.leaveOnline e .absent
  | _, _ => s1

/-- PRESENCE_FILTER_EXPIRY (R123). -/
def execPresenceFilterExpiry (engine : Fin 3) (s : State) : Host.Outcome State Fault Refusal :=
  .next (s.whenever (s.running && (s.engine engine).presFilter.isSome) fun t => (t.presenceQualified engine).grantAll)

/-! ### The transmitter (R119) -/

/-- HELLO_TIMER_EXPIRY (R124): one HELLO is handed, and the timer runs again. -/
def execHelloTimerExpiry (engine : Fin 3) (s : State) : Host.Outcome State Fault Refusal :=
  .next (s.whenever (s.running && (s.engine engine).helloTimer.isSome && decide ((s.engine engine).link = .hunting)) fun t =>
    t.modEngine engine fun r => { r with helloTimer := some Config.helloMs }.handHello)

/-- The frame that a control queue entry sends; a HELLO takes its tags now (R119, R124). -/
def ControlFrame.frame (r : Engine) : ControlFrame → PartFrame
  | .hello => .hello r.nextTag r.firstOpen
  | .abort tag => .sheetAbort tag

/-- The frame on the sheet path may begin: a SHEET START needs buffer credit (R132). -/
def Engine.mayBegin (r : Engine) : PartFrame → Bool
  | .sheetStart _ _ _ _ => decide (0 < r.credit)
  | .hello _ _ | .sheetData _ _ | .sheetEnd _ _ | .sheetAbort _ => true

/-- The credit after a frame of the sheet path begins (R132). -/
def Engine.creditAfter (r : Engine) : PartFrame → Nat
  | .sheetStart _ _ _ _ => r.credit - 1
  | .hello _ _ | .sheetData _ _ | .sheetEnd _ _ | .sheetAbort _ => r.credit

/-- At a boundary the transmitter begins the head of the control queue, or the frame on the sheet path, or one mark pair; a frame taken
from the sheet path lets the channel hand the next (R119, R150). -/
def State.beginNext (e : Fin 3) (s : State) : State :=
  let r := s.engine e
  match r.control, r.sheetPath with
  | c :: rest, _ => s.modEngine e fun q => { q with control := rest, tx := .frame (c.frame r) }
  | [], some f =>
    if r.mayBegin f then
      (s.modEngine e fun q => { q with sheetPath := none, tx := .frame f, credit := r.creditAfter f }).runChannel e
    else s.modEngine e fun q => { q with tx := .mark }
  | [], none => s.modEngine e fun q => { q with tx := .mark }

/-- SHEET END has been sent whole for the STREAMING sheet of its tag: the sheet becomes SENT, the channel unpins and is IDLE, and the
arbiters run (R151). A SHEET END whose sheet has ended reports nothing (R119). -/
def State.sheetEndSent (e : Fin 3) (tag : Word16) (s : State) : State :=
  let r := s.engine e
  if r.channel.phase = .finishing ∧ r.channel.sheet = some tag then
    ((s.modEngine e fun q =>
      { q with
        sheets := q.sheets.map fun h => if h.tag = tag then { h with state := .sent } else h
        channel := Channel.reset }).lowerPin r.channel.frame).dispatch
  else s

/-- The item being sent ends, and the next begins (R119; log entry 30). -/
def State.frameBoundary (e : Fin 3) (s : State) : State :=
  (match (s.engine e).tx with
    | .frame (.sheetEnd tag _) => s.sheetEndSent e tag
    | _ => s).beginNext e

/-- TX_FRAME_BOUNDARY (R119). -/
def execTxFrameBoundary (engine : Fin 3) (s : State) : Host.Outcome State Fault Refusal :=
  .next (s.whenever (s.running && decide ((s.engine engine).link ≠ .absent)) fun t => (t.frameBoundary engine).grantAll)

/-! ### The receiver (R120 to R122) -/

/-- The receiver runs: the link is HUNTING or ONLINE (R120). -/
def State.receiving (e : Fin 3) (s : State) : Bool := s.running && decide ((s.engine e).link ≠ .absent)

/-- A frame whose CRC matched joins the receive buffer, or is lost to an overrun, which is a receive fault (R120, R121). -/
def State.frameArrives (e : Fin 3) (f : RawFrame) (s : State) : State :=
  if (s.engine e).rxBuffer.length < Config.receiveBufferLimit then
    s.modEngine e fun r => { r with rxBuffer := r.rxBuffer ++ [f], rx := .markDue }
  else s.receiveFault e

/-- RX_FRAME_COMPLETE (R120). That it acts in HUNT and while a mark pair is due too is the model's choice: the command stands for the mark
pair before the frame as well (log entry 21). -/
def execRxFrameComplete (engine : Fin 3) (kind : Byte) (payload : List Byte) (s : State) : Host.Outcome State Fault Refusal :=
  .next (s.whenever (s.receiving engine && kind != 0xA5 && decide (payload.length ≤ 1024))
    fun t => (t.frameArrives engine ⟨kind, payload⟩).grantAll)

/-- RECEIVE_FAULT (R121): the receiver stands past HUNT. -/
def execReceiveFault (engine : Fin 3) (s : State) : Host.Outcome State Fault Refusal :=
  .next (s.whenever (s.receiving engine && decide ((s.engine engine).rx ≠ .hunt)) fun t => (t.receiveFault engine).grantAll)

/-- MARK_PAIR_FOUND (R120): the receiver enters MARKED. -/
def execMarkPairFound (engine : Fin 3) (s : State) : Host.Outcome State Fault Refusal :=
  .next (s.whenever (s.receiving engine) fun t => t.modEngine engine fun r => { r with rx := .marked })

/-- FRAME_TAKEN (R122): the oldest complete frame is taken from the receive buffer and acts at once. -/
def execFrameTaken (engine : Fin 3) (s : State) : Host.Outcome State Fault Refusal :=
  .next (match s.receiving engine, (s.engine engine).rxBuffer with
    | true, f :: rest => (s.takeHead engine f rest).grantAll
    | _, _ => s)

/-! ### Frames that act (R124, R127, R130, R131) -/

/-- READY (R124, R127). -/
def execReady (engine : Fin 3) (media : Byte) (sheets lastTag : Word16) (bufferFree : Byte) (s : State) :
    Host.Outcome State Fault Refusal :=
  .next ((s.deliver engine ⟨0x11, media :: (word2 sheets ++ word2 lastTag ++ [bufferFree])⟩).grantAll)

/-- STATUS (R130). -/
def execStatus (engine : Fin 3) (media : Byte) (sheets lastTag : Word16) (bufferFree head : Byte) (s : State) :
    Host.Outcome State Fault Refusal :=
  .next ((s.deliver engine ⟨0x12, media :: (word2 sheets ++ word2 lastTag ++ [bufferFree, head])⟩).grantAll)

/-- SHEET_DONE (R131). -/
def execSheetDone (engine : Fin 3) (tag : Word16) (s : State) : Host.Outcome State Fault Refusal :=
  .next ((s.deliver engine ⟨0x13, word2 tag⟩).grantAll)

/-- SHEET_FAULT (R131). -/
def execSheetFault (engine : Fin 3) (tag : Word16) (cause : Byte) (s : State) : Host.Outcome State Fault Refusal :=
  .next ((s.deliver engine ⟨0x14, word2 tag ++ [cause]⟩).grantAll)

/-! ### Timers of the link (R126, R128) -/

/-- SILENCE_TIMER_EXPIRY (R126). -/
def execSilenceTimerExpiry (engine : Fin 3) (s : State) : Host.Outcome State Fault Refusal :=
  .next (s.whenever (s.running && (s.engine engine).silenceTimer.isSome && decide ((s.engine engine).link = .online))
    fun t => (t.leaveOnline engine .silence).grantAll)

/-- Every UNKNOWN sheet of the engine ends as FAULT(LINK_LOST), in tag order (R128). -/
def State.relinkExpired (e : Fin 3) (s : State) : State :=
  (s.modEngine e fun r => { r with relinkTimer := none }).endSheets e ((s.engine e).tagsIn .unknown) (.fault .linkLost)

/-- RELINK_TIMER_EXPIRY (R128). -/
def execRelinkTimerExpiry (engine : Fin 3) (s : State) : Host.Outcome State Fault Refusal :=
  .next (s.whenever (s.running && (s.engine engine).relinkTimer.isSome) fun t => (t.relinkExpired engine).grantAll)

/-! ### Engine requests (R134, R135, R142) -/

/-- SET ENGINE (R134); a changed mask or enabled lets the arbiters run (R141). -/
def State.setEngine (engine enabled mask : Byte) (s : State) : State :=
  match toFin 3 engine.toNat, toFlag enabled with
  | some e, some on =>
    if mask.toNat ≤ 15 then
      (s.modEngine e fun r => { r with enabled := on, stationMask := mask.setWidth 4 }).dispatch.respond .ok []
    else s.refuse .badArgument
  | _, _ => s.refuse .badArgument

/-- SET_ENGINE (R134). -/
def execSetEngine (engine enabled mask : Byte) (s : State) : Host.Outcome State Fault Refusal :=
  .next (s.request (.setEngine engine enabled mask) (State.setEngine engine enabled mask)).grantAll

/-- A sheet as READ ENGINE sends it (R135). -/
def Sheet.bytes (h : Sheet) : List Byte := word2 h.tag ++ byte1 h.order ++ byte1 h.line ++ byte1 h.state.code

/-- The payload of READ ENGINE (R135). -/
def Engine.bytes (e : Fin 3) (r : Engine) : List Byte :=
  byte1 e.val ++ byte1 r.link.code ++ byteOpt (fun (c : LinkLoss) => byte1 c.code) r.lastLoss ++ byteFlag r.enabled ++
    byte1 r.stationMask.toNat ++ byte1 r.media ++ byte2 r.sheetsRemaining ++
    byteOpt (fun (h : HeadState) => byte1 h.code) r.head ++ byte1 r.bufferFree ++ byte1 r.holds.mask ++ word2 r.nextTag ++
    byteOpt word2 r.lastCompleted ++ byteOpt (fun ms => byte2 (toSeconds ms)) r.relinkTimer ++ byte1 r.receiveFaults ++
    byte1 r.strayOutcomes ++ byte1 r.protocolErrors ++ byte1 r.sheets.length ++ r.sheets.flatMap Sheet.bytes

/-- READ ENGINE with clear sets the three counters to 0 (R135). -/
def Engine.cleared (r : Engine) : Engine := { r with receiveFaults := 0, strayOutcomes := 0, protocolErrors := 0 }

/-- READ ENGINE (R135). -/
def State.readEngine (engine clear : Byte) (s : State) : State :=
  match toFin 3 engine.toNat, toFlag clear with
  | some e, some c =>
    let payload := (s.engine e).bytes e
    (if c then s.modEngine e Engine.cleared else s).respond .ok payload
  | _, _ => s.refuse .badArgument

/-- READ_ENGINE (R135). -/
def execReadEngine (engine clear : Byte) (s : State) : Host.Outcome State Fault Refusal :=
  .next (s.request (.readEngine engine clear) (State.readEngine engine clear))

/-- The HOST hold of an engine is set or removed; a removal may let the arbiter run (R142). -/
def State.setHostHold (engine : Byte) (on : Bool) (s : State) : State :=
  match toFin 3 engine.toNat with
  | none => s.refuse .badArgument
  | some e => (s.modEngine e fun r => { r with holds := { r.holds with host := on } }).dispatch.respond .ok []

/-- HOLD_ENGINE (R142). -/
def execHoldEngine (engine : Byte) (s : State) : Host.Outcome State Fault Refusal :=
  .next (s.request (.holdEngine engine) fun t => t.setHostHold engine true).grantAll

/-- RELEASE_ENGINE (R142). -/
def execReleaseEngine (engine : Byte) (s : State) : Host.Outcome State Fault Refusal :=
  .next (s.request (.releaseEngine engine) fun t => t.setHostHold engine false).grantAll

/-! ### Raster bursts (R149, R152, R153) -/

/-- A burst of a READING channel has completed with good or corrected data: it fills a buffer, a page may end, and the channel goes on
(R149). -/
def State.burstTaken (e : Fin 3) (p : Page) (data : List Byte) (s : State) : State :=
  let c := (s.engine e).channel
  let n := c.bytesRead + data.length
  let pageDone := decide (n % Config.pageBytes = 0) || decide (n = c.length)
  let s1 := if pageDone then s.lowerReader p else s
  (s1.modChannel e fun d =>
    { d with
      bytesRead := n
      buffers := d.buffers ++ [data]
      readingPage := if pageDone then none else d.readingPage
      pageIndex := if pageDone then d.pageIndex + 1 else d.pageIndex
      phase := if n = c.length then .finishing else d.phase }).runChannel e

/-- A raster burst completes: its errors act; a STOPPING channel discards it and is done, and an uncorrectable group ends the sheet
(R149, R152, R153). -/
def State.rasterComplete (e : Fin 3) (p : Page) (position length : Nat) (errors : ReadErrors) (s : State) : State :=
  let data := readBytes s.store.mem (pageAddress p position) length
  let s1 := s.applyErrors p errors
  match (s1.engine e).channel.phase with
  | .stopping => (s1.unwindChannel e).beginWaiting e
  | .reading => if 0 < errors.uncorrectable then s1.storeErrorEnd e else s1.burstTaken e p data
  | .idle | .finishing => s1

/-- RASTER_BURST_COMPLETE (R149). -/
def execRasterBurstComplete (channel : Fin 3) (errors : ReadErrors) (s : State) : Host.Outcome State Fault Refusal :=
  .next (match s.store.port.busy with
    | some (.raster e p position length) =>
      if e = channel then (s.endAccess.rasterComplete e p position length errors).grantAll else s
    | _ => s)

end Sys2Proof.Machine
end

