-- ==== Sys2Proof/Machine/Frames.lean ====
section
/-! DEFINITION. The commands of frames and the Image Store (chapter 1), from CREATE FRAME to the frame damage notice. -/

namespace Sys2Proof.Machine

/-! ### What the read requests report (R18, R19) -/

/-- The origin fields of READ FRAME: the kind, and the card's fields as fields of that variant (R18, R177). -/
def Origin.bytes : Origin → List Byte
  | .card slot session start =>
    byte1 0 ++ byteOpt byte1 (some slot.val) ++ byteOpt (fun (b : Byte) => [b]) (some session) ++ byteOpt word4 (some start)
  | .host => byte1 1 ++ byteOpt byte1 none ++ byteOpt (fun (b : Byte) => [b]) none ++ byteOpt word4 none

/-- The payload of READ FRAME (R18). -/
def Frame.bytes (n : Nat) (f : Frame) : List Byte :=
  byte2 n ++ byte1 f.state.code ++ f.origin.bytes ++ byte4 f.byteLength ++ byteOpt byte4 f.fillMark ++ byte2 f.references ++
    byte1 f.pins ++ byteFlag f.releasePending ++ byteOpt (fun c => byte1 c.code) f.cause ++ byte2 f.extent.length ++
    f.extent.flatMap fun p => byte2 p.val

/-- The migration fields of READ STORE (R19). -/
def Migration.bytes (m : Migration) : List Byte := byte2 m.page.val ++ byte2 m.target.val ++ byte2 m.frame ++ byte1 m.bursts

/-- Pages in the extents of all frames. -/
def Store.extentPages (t : Store) : Nat := (t.frames.map fun e => e.2.extent.length).sum

/-- The payload of READ STORE (R19). The pages counted SPARE, TARGET and RETIRING are at most 255, 1 and 3 (R4, R24, R1), and each of
these counts takes the one byte that holds its range (R177). -/
def Store.bytes (t : Store) : List Byte :=
  byte2 t.freePool.length ++ byte1 t.spares.length ++ byte2 t.extentPages ++ byte1 (if t.migration.isSome then 1 else 0) ++
    byte1 t.retiringPages.length ++ byte2 t.bad.length ++ byte2 t.waitList.length ++ byteOpt byte2 t.waitList.head? ++
    byte1 t.migrationQueue.length ++ byteOpt Migration.bytes t.migration ++ byte1 t.patrol.code ++ byte2 t.scrubCursor.val ++
    word2 t.passCount

/-! ### Host frames (section 1.2.1) -/

/-- CREATE FRAME (R9). -/
def State.createFrame (byteLength : Word32) (s : State) : State :=
  let n := byteLength.toNat
  if n = 0 ∨ Config.maxFrameBytes < n then s.refuse .badArgument
  else
    match s.freeFrame with
    | none => s.refuse .tableFull
    | some k =>
      let t := s.createFrameAt k .host n
      t.respond .ok (byte2 k ++ byte1 (((t.frame k).map fun f => f.state.code).getD 0))

/-- CREATE_FRAME (R9). -/
def execCreateFrame (byteLength : Word32) (s : State) : Host.Outcome State Fault Refusal :=
  .next (s.request (.createFrame byteLength) (State.createFrame byteLength))

/-- WRITE FRAME DATA is checked, and asks for its host data grant (R10). -/
def State.writeFrameData (frame : Word16) (offset : Word32) (data : List Byte) (s : State) : State :=
  match s.frame frame.toNat with
  | none => s.refuse .noSuchRecord
  | some f =>
    if f.origin ≠ .host ∨ f.state ≠ .open then s.refuse .wrongState
    else if f.fillMark ≠ some offset.toNat then s.refuse .badArgument
    else if f.byteLength < offset.toNat + data.length then s.refuse .limit
    else s.askPort (.hostWrite frame.toNat data)

/-- WRITE_FRAME_DATA (R10). -/
def execWriteFrameData (frame : Word16) (offset : Word32) (data : List Byte) (s : State) : Host.Outcome State Fault Refusal :=
  .next (s.request (.writeFrameData frame offset data) (State.writeFrameData frame offset data)).grantAll

/-- The bytes of a host frame's fill mark, 0 for a card frame. -/
def Frame.fill (f : Frame) : Nat := f.fillMark.getD 0

/-- The offset of a host frame's first held byte, from which its next store write begins (R10). -/
def Frame.heldFrom (f : Frame) : Nat := f.fill - f.heldBytes.length

/-- The complete 8-byte groups that the held bytes and new data form (R10). -/
def Frame.wholeGroups (f : Frame) (data : List Byte) : List Byte :=
  (f.heldBytes ++ data).take ((f.heldBytes ++ data).length / 8 * 8)

/-- The held bytes as one 8-byte group, the missing bytes zero (R11). -/
def Frame.sealGroup (f : Frame) : List Byte := f.heldBytes ++ List.replicate (8 - f.heldBytes.length) 0

/-- The complete 8-byte groups of held bytes and new data are written, and the rest is held (R10). -/
def State.storeHostWrite (n : Nat) (f : Frame) (data : List Byte) (s : State) : State :=
  (s.writeFrame f f.heldFrom (f.wholeGroups data)).setFrame n
    { f with fillMark := some (f.fill + data.length)
             heldBytes := (f.heldBytes ++ data).drop ((f.heldBytes ++ data).length / 8 * 8) }

/-- The store write of WRITE FRAME DATA completes (R10). -/
def State.hostWriteComplete (n : Nat) (data : List Byte) (s : State) : State :=
  match s.frame n with
  | none => s
  | some f => ((s.storeHostWrite n f data).settleFrame n).respond .ok (byte4 (f.fill + data.length))

/-- HOST_WRITE_COMPLETE (R10). -/
def execHostWriteComplete (s : State) : Host.Outcome State Fault Refusal :=
  .next (match s.store.port.busy with
    | some (.hostWrite n data) => (s.endAccess.hostWriteComplete n data).grantAll
    | _ => s)

/-- The frame enters READY, and its held bytes are cleared (R11). -/
def State.completeHostFrame (n : Nat) (f : Frame) (s : State) : State :=
  (s.setFrame n { f with state := .ready, heldBytes := [] }).respond .ok []

/-- SEAL FRAME: checked, and either complete at once or asking for the held-byte write (R11). -/
def State.sealFrame (frame : Word16) (s : State) : State :=
  match s.frame frame.toNat with
  | none => s.refuse .noSuchRecord
  | some f =>
    if f.origin ≠ .host ∨ f.state ≠ .open then s.refuse .wrongState
    else if f.fill < f.byteLength then s.refuse .wrongState
    else if f.heldBytes = [] then s.completeHostFrame frame.toNat f
    else s.askPort (.hostSeal frame.toNat)

/-- SEAL_FRAME (R11). -/
def execSealFrame (frame : Word16) (s : State) : Host.Outcome State Fault Refusal :=
  .next (s.request (.sealFrame frame) (State.sealFrame frame)).grantAll

/-- The held bytes are written as one 8-byte group with the missing bytes zero, and the frame is READY (R11). -/
def State.sealWriteComplete (n : Nat) (s : State) : State :=
  match s.frame n with
  | none => s
  | some f => (s.writeFrame f f.heldFrom f.sealGroup).completeHostFrame n f

/-- SEAL_WRITE_COMPLETE (R11). -/
def execSealWriteComplete (s : State) : Host.Outcome State Fault Refusal :=
  .next (match s.store.port.busy with
    | some (.hostSeal n) => (s.endAccess.sealWriteComplete n).grantAll
    | _ => s)

/-- READ FRAME DATA is checked, and asks for its host data grant (R12). -/
def State.readFrameData (frame : Word16) (offset : Word32) (count : Word16) (s : State) : State :=
  match s.frame frame.toNat with
  | none => s.refuse .noSuchRecord
  | some f =>
    if f.state ≠ .ready then s.refuse .wrongState
    else if count.toNat = 0 ∨ 512 < count.toNat then s.refuse .badArgument
    else if f.byteLength < offset.toNat + count.toNat then s.refuse .limit
    else s.askPort (.hostRead frame.toNat offset.toNat count.toNat)

/-- READ_FRAME_DATA (R12). -/
def execReadFrameData (frame : Word16) (offset : Word32) (count : Word16) (s : State) : Host.Outcome State Fault Refusal :=
  .next (s.request (.readFrameData frame offset count) (State.readFrameData frame offset count)).grantAll

/-- A read from an offset on crosses a page boundary. -/
def readCrosses (offset count : Nat) : Bool := decide (offset / Config.pageBytes < (offset + count - 1) / Config.pageBytes)

/-- The one or two pages of an extent that a read covers, each with the errors met on it (R12, R20). -/
def readPages (extent : List Page) (offset count : Nat) (first next : ReadErrors) : List (Page × ReadErrors) :=
  let k := offset / Config.pageBytes
  let page (j : Nat) (e : ReadErrors) : List (Page × ReadErrors) := (extent[j]?).toList.map fun p => (p, e)
  page k first ++ (if readCrosses offset count then page (k + 1) next else [])

/-- A host read completes: its errors act on the one or two pages it read, and it is answered (R12, R20, R21). -/
def State.hostReadComplete (n offset count : Nat) (first next : ReadErrors) (s : State) : State :=
  match s.frame n with
  | none => s
  | some f =>
    let data := readFrameBytes s.store.mem f.extent offset count
    let t := (s.applyReads (readPages f.extent offset count first next)).settleFrame n
    let bad := first.uncorrectable + (if readCrosses offset count then next.uncorrectable else 0)
    if 0 < bad then t.refuse .storeError else t.respond .ok data

/-- HOST_READ_COMPLETE (R12). -/
def execHostReadComplete (first next : ReadErrors) (s : State) : Host.Outcome State Fault Refusal :=
  .next (match s.store.port.busy with
    | some (.hostRead n offset count) => (s.endAccess.hostReadComplete n offset count first next).grantAll
    | _ => s)

/-! ### Release and reading (R16, R18, R19) -/

/-- What release pending brings, by the frame's state (R16). -/
def State.releaseByState (n : Nat) (f : Frame) (s : State) : State :=
  match f.state, f.origin with
  | .waitingSpace, _ | .queued, _ => s.damageFrame n .cancelled
  | .filling, .card i _ _ => s.recordCancel n i
  | .filling, .host | .open, _ | .ready, _ | .damaged, _ => s.retireTest n

/-- RELEASE FRAME (R16). -/
def State.releaseFrame (frame : Word16) (s : State) : State :=
  let n := frame.toNat
  match s.frame n with
  | none => s.refuse .noSuchRecord
  | some f =>
    if f.releasePending then s.respond .ok []
    else ((s.setFrame n { f with releasePending := true }).releaseByState n f).respond .ok []

/-- RELEASE_FRAME (R16). -/
def execReleaseFrame (frame : Word16) (s : State) : Host.Outcome State Fault Refusal :=
  .next (s.request (.releaseFrame frame) (State.releaseFrame frame)).grantAll

/-- READ_FRAME (R18). -/
def execReadFrame (frame : Word16) (s : State) : Host.Outcome State Fault Refusal :=
  .next (s.request (.readFrame frame) fun t =>
    match t.frame frame.toNat with
    | none => t.refuse .noSuchRecord
    | some f => t.respond .ok (f.bytes frame.toNat))

/-- READ_STORE (R19). -/
def execReadStore (s : State) : Host.Outcome State Fault Refusal :=
  .next (s.request .readStore fun t => t.respond .ok t.store.bytes)

/-! ### The patrol (section 1.4) -/

/-- SCRUB PAGE: checked, and begun at once or behind the patrol step in progress (R23). -/
def State.scrubPage (page : Word16) (s : State) : State :=
  match toFin 4096 page.toNat with
  | none => s.refuse .badArgument
  | some p =>
    if s.scrubbable p then
      if s.store.scrubStep.isNone then s.beginScrub p true
      else { s with store := { s.store with scrubWaiting := some p } }
    else s.refuse .wrongState

/-- SCRUB_PAGE (R23). -/
def execScrubPage (page : Word16) (s : State) : Host.Outcome State Fault Refusal :=
  .next (s.request (.scrubPage page) (State.scrubPage page)).grantAll

/-- RESUME SCRUB takes the patrol out of STOPPED (R23). -/
def State.resumeScrub (s : State) : State :=
  if s.store.patrol = .stopped then
    if 0 < s.params.scrubInterval then { s with store := { s.store with patrol := .running } }.startScrubTimer
    else { s with store := { s.store with patrol := .idle } }
  else s

/-- RESUME_SCRUB (R23). -/
def execResumeScrub (s : State) : Host.Outcome State Fault Refusal :=
  .next (s.request .resumeScrub fun t => t.resumeScrub.respond .ok [])

/-- The scrub timer expires: the search is made, or waits for a SCRUB PAGE step in progress (R22). -/
def State.scrubTimerExpired (s : State) : State :=
  let t := { s with store := { s.store with scrubTimer := none } }
  if t.store.scrubStep.isSome then { t with store := { t.store with searchDue := true } } else t.searchScrub

/-- SCRUB_TIMER_EXPIRY (R22). -/
def execScrubTimerExpiry (s : State) : Host.Outcome State Fault Refusal :=
  .next (s.whenever (s.running && s.store.scrubTimer.isSome && decide (s.store.patrol = .running))
    fun t => t.scrubTimerExpired.grantAll)

/-- A scrub portion completes: its errors act, and the step ends after 16 portions or where the page has left eligibility at any time
since the step began (R22; log entry 24). -/
def State.scrubPortionComplete (p : Page) (e : ReadErrors) (s : State) : State :=
  let s1 := (s.applyErrors p e).settlePage p
  match s1.store.scrubStep with
  | none => s1
  | some st =>
    let u := ({ st with portions := st.portions + 1 }.count s.stopSet e).noteEligible fun q => s1.scrubbable q
    if u.portions < Config.burstsPerPage ∧ u.left = false then
      { s1 with store := { s1.store with scrubStep := some u } }.askPort (.scrub p)
    else s1.endScrub u

/-- SCRUB_PORTION_COMPLETE (R22). -/
def execScrubPortionComplete (errors : ReadErrors) (s : State) : Host.Outcome State Fault Refusal :=
  .next (match s.store.port.busy with
    | some (.scrub p) => (s.endAccess.scrubPortionComplete p errors).grantAll
    | _ => s)

/-! ### Migration (section 1.5) -/

/-- The sixteenth burst has completed: the extent names the target, the old page is RETIRING or BAD, a refill is made and the next
migration is tried (R25). -/
def State.completeMigration (m : Migration) (s : State) : State :=
  let s1 := s.modFrame m.frame fun f => { f with extent := f.extent.map fun p => if p = m.page then m.target else p }
  let s2 :=
    if 0 < (s1.attr m.page).readers then
      { s1 with store := { s1.store with retiringPages := insertAsc Fin.val m.page s1.store.retiringPages } }
    else { s1 with store := { s1.store with bad := insertAsc Fin.val m.page s1.store.bad } }
  { s2 with store := { s2.store with migration := none } }.refill.tryMigration

/-- Bytes of a page from a position on are written to the same position of another page. -/
def State.copyBytes (page target : Page) (position count : Nat) (s : State) : State :=
  { s with store := { s.store with
      mem := writeBytes s.store.mem (pageAddress target position) (readBytes s.store.mem (pageAddress page position) count) } }

/-- The data of a burst is written to the target, and the migration completes or asks for its next burst (R25). -/
def State.copyBurst (m : Migration) (position : Nat) (s : State) : State :=
  let k := { m with bursts := m.bursts + 1 }
  let t := s.copyBytes m.page m.target position Config.burstBytes
  let s1 := { t with store := { t.store with migration := some k } }
  if k.bursts < Config.burstsPerPage then s1.askPort (.migration m.page m.target (k.bursts * Config.burstBytes))
  else s1.completeMigration k

/-- A migration burst completes: its errors act; a burst of a migration that was abandoned meanwhile, or that met an uncorrectable
group, writes nothing (R25, R26). -/
def State.migrationBurstComplete (page target : Page) (position : Nat) (e : ReadErrors) (s : State) : State :=
  let s1 := s.applyErrors page e
  match s1.store.migration with
  | some m =>
    if m.page = page ∧ m.target = target ∧ m.bursts * Config.burstBytes = position ∧ e.uncorrectable = 0 then
      s1.copyBurst m position
    else s1.settlePage page
  | none => s1.settlePage page

/-- MIGRATION_BURST_COMPLETE (R25). -/
def execMigrationBurstComplete (errors : ReadErrors) (s : State) : Host.Outcome State Fault Refusal :=
  .next (match s.store.port.busy with
    | some (.migration page target position) =>
      (s.endAccess.migrationBurstComplete page target position errors).grantAll
    | _ => s)

/-! ### The frame damage notice (R70) -/

/-- FRAME_DAMAGE_NOTICE (R70): the Order Book takes the oldest notice. -/
def execFrameDamageNotice (frame : Fin 1024) (s : State) : Host.Outcome State Fault Refusal :=
  .next (match s.store.notices with
    | n :: rest =>
      s.whenever (s.running && n == frame.val) fun t => { t with store := { t.store with notices := rest } }.takeDamage n
    | [] => s)

end Sys2Proof.Machine
end

