-- ==== Sys2Proof/Machine/Orders.lean ====
section
/-! DEFINITION. The commands of the Order Book (chapter 3). -/

namespace Sys2Proof.Machine

/-! ### Shared by the requests -/

/-- A request that names an order: BAD_ARGUMENT above 63, NO_SUCH_RECORD where it is not present, and otherwise the request's own rule
(section 3.5; log entry 29). -/
def State.withOrder (order : Byte) (work : Nat → Order → State → State) (s : State) : State :=
  let n := order.toNat
  if Config.orderEntries ≤ n then s.refuse .badArgument
  else
    match s.order n with
    | none => s.refuse .noSuchRecord
    | some o => work n o s

/-- An OPEN order is stored with its idle deadline restarted, which sets the order's change flag (R60, R50). -/
def State.storeRestarted (n : Nat) (o : Order) (s : State) : State :=
  (s.setOrder n { o with idleDeadline := s.freshDeadline }).setFlag (orderFlag n)

/-- A frame that ADD LINE and LOCK ORDER accept: present, READY and not release-pending (R57, R62). -/
def State.citable (n : Nat) (s : State) : Bool :=
  match s.frame n with
  | some f => decide (f.state = .ready) && !f.releasePending
  | none => false

/-- The Price Table entry of a product. -/
def State.price (p : Fin 16) (s : State) : Price := s.book.prices[p]

/-- The line arguments that ADD LINE and CHANGE LINE share, where they are in range (R57, R58). -/
structure LineArgs where
  frame    : Nat
  product  : Fin 16
  quantity : Nat
  fit      : Fit
  deriving DecidableEq, Repr

/-- Line arguments read and checked (R57, R58). -/
def toLineArgs (frame : Word16) (product quantity fit : Byte) : Option LineArgs :=
  match toFin 16 product.toNat, toFit fit with
  | some p, some f =>
    if frame.toNat < Config.frameEntries ∧ 1 ≤ quantity.toNat ∧ quantity.toNat ≤ 99 then
      some { frame := frame.toNat, product := p, quantity := quantity.toNat, fit := f }
    else none
  | _, _ => none

/-- The value due of lines: quantity times unit price, summed (R52). -/
def linesDue (l : List OrderLine) : Nat := (l.map fun x => x.quantity * x.unitPrice).sum

/-! ### Building an order (section 3.5) -/

/-- The fields of a new order (R56). -/
def newOrder (code : Nat) (station : Fin 4) (priority : Priority) (allowance : Nat) (deadline : Option Nat) : Order :=
  { receiptCode := code, station := station, priority := priority, state := .open, lines := [], nextLine := some 1,
    reprintAllowance := allowance, admission := none, valueDue := 0, valueAuthorized := 0, valueDelivered := 0, valueCaptured := 0,
    tender := none, cancelRequested := false, lastOutcome := none, finish := none, idleDeadline := deadline }

/-- OPEN ORDER (R56). -/
def State.openOrder (station priority : Byte) (s : State) : State :=
  match toFin 4 station.toNat, toPriority priority with
  | some st, some p =>
    match lowestFree s.book.orders Config.orderEntries 0 with
    | none => s.refuse .tableFull
    | some n =>
      let code := s.nextCode
      let t := { s with book := { s.book with lastCode := some code } }
      (t.setOrder n (newOrder code st p s.params.reprintAllowance s.freshDeadline)).respond .ok (byte1 n ++ byte4 code)
  | _, _ => s.refuse .badArgument

/-- OPEN_ORDER (R56). -/
def execOpenOrder (station priority : Byte) (s : State) : Host.Outcome State Fault Refusal :=
  .next (s.request (.openOrder station priority) (State.openOrder station priority))

/-- The line that ADD LINE adds (R57). -/
def newLine (number price : Nat) (a : LineArgs) : OrderLine :=
  { number := number, frame := a.frame, product := a.product, unitPrice := price, fit := a.fit, quantity := a.quantity,
    delivered := 0, failed := 0, withdrawn := 0, inFlight := 0, reprintsUsed := 0, lastFault := none, stopped := false }

/-- ADD LINE, on an order that is present (R57). -/
def State.addLine (frame : Word16) (product quantity fit : Byte) (n : Nat) (o : Order) (s : State) : State :=
  if o.state ≠ .open then s.refuse .wrongState
  else
    match toLineArgs frame product quantity fit with
    | none => s.refuse .badArgument
    | some a =>
      match o.nextLine with
      | none => s.refuse .limit
      | some k =>
        if Config.linesPerOrder ≤ o.lines.length then s.refuse .limit
        else if s.citable a.frame = false then s.refuse .frameNotReady
        else if (s.price a.product).enabled = false then s.refuse .productDisabled
        else
          let due := o.valueDue + a.quantity * (s.price a.product).price
          if Config.maxMoney < due then s.refuse .limit
          else
            let p := { o with
              lines := o.lines ++ [newLine k (s.price a.product).price a]
              nextLine := if k < 255 then some (k + 1) else none
              valueDue := due }
            ((s.storeRestarted n p).raiseReference a.frame).respond .ok (byte1 k ++ byte4 due)

/-- ADD_LINE (R57). -/
def execAddLine (order : Byte) (frame : Word16) (product quantity fit : Byte) (s : State) : Host.Outcome State Fault Refusal :=
  .next (s.request (.addLine order frame product quantity fit) (State.withOrder order (State.addLine frame product quantity fit)))

/-- The reference of a changed line moves from the old frame to the new one (R58, R15). -/
def State.moveReference (old new : Nat) (s : State) : State :=
  if old = new then s else (s.raiseReference new).lowerReference old

/-- CHANGE LINE, on an order that is present (R58). -/
def State.changeLine (line : Byte) (frame : Word16) (product quantity fit : Byte) (n : Nat) (o : Order) (s : State) : State :=
  if o.state ≠ .open then s.refuse .wrongState
  else if line = 0 then s.refuse .badArgument
  else
    match toLineArgs frame product quantity fit with
    | none => s.refuse .badArgument
    | some a =>
      match o.line line.toNat with
      | none => s.refuse .noSuchRecord
      | some l =>
        if a.frame ≠ l.frame ∧ s.citable a.frame = false then s.refuse .frameNotReady
        else if a.product ≠ l.product ∧ (s.price a.product).enabled = false then s.refuse .productDisabled
        else
          let price := if a.product = l.product then l.unitPrice else (s.price a.product).price
          let p := o.setLine
            { l with frame := a.frame, product := a.product, quantity := a.quantity, fit := a.fit, unitPrice := price }
          let due := linesDue p.lines
          if Config.maxMoney < due then s.refuse .limit
          else ((s.storeRestarted n { p with valueDue := due }).moveReference l.frame a.frame).respond .ok (byte4 due)

/-- CHANGE_LINE (R58). -/
def execChangeLine (order line : Byte) (frame : Word16) (product quantity fit : Byte) (s : State) :
    Host.Outcome State Fault Refusal :=
  .next (s.request (.changeLine order line frame product quantity fit)
    (State.withOrder order (State.changeLine line frame product quantity fit))).grantAll

/-- REMOVE LINE, on an order that is present (R59). -/
def State.removeLine (line : Byte) (n : Nat) (o : Order) (s : State) : State :=
  if o.state ≠ .open then s.refuse .wrongState
  else if line = 0 then s.refuse .badArgument
  else
    match o.line line.toNat with
    | none => s.refuse .noSuchRecord
    | some l =>
      let due := o.valueDue - l.quantity * l.unitPrice
      let p := { o with lines := o.lines.filter fun m => m.number ≠ l.number, valueDue := due }
      ((s.storeRestarted n p).lowerReference l.frame).respond .ok (byte4 due)

/-- REMOVE_LINE (R59). -/
def execRemoveLine (order line : Byte) (s : State) : Host.Outcome State Fault Refusal :=
  .next (s.request (.removeLine order line) (State.withOrder order (State.removeLine line))).grantAll

/-- SET PRIORITY, on an order that is present (R61). -/
def State.setPriority (priority : Byte) (n : Nat) (o : Order) (s : State) : State :=
  match toPriority priority with
  | none => s.refuse .badArgument
  | some p =>
    match o.state with
    | .open => (s.storeRestarted n { o with priority := p }).respond .ok []
    | .locked | .printing => (s.setOrder n { o with priority := p }).respond .ok []
    | .settling | .closed | .abandoned => s.refuse .wrongState

/-- SET_PRIORITY (R61). -/
def execSetPriority (order priority : Byte) (s : State) : Host.Outcome State Fault Refusal :=
  .next (s.request (.setPriority order priority) (State.withOrder order (State.setPriority priority)))

/-- IDLE_DEADLINE_EXPIRY (R60). -/
def execIdleDeadlineExpiry (order : Fin 64) (s : State) : Host.Outcome State Fault Refusal :=
  .next (match s.order order.val with
    | some o =>
      s.whenever (s.running && decide (o.state = .open) && o.idleDeadline.isSome) fun t =>
        t.setOrder order.val { o with state := .abandoned, finish := some .expired, idleDeadline := none }
    | none => s)

/-! ### Locking and cancelling (section 3.6) -/

/-- An order that passes the checks of LOCK ORDER is locked: a free order enters PRINTING, and for any other a sale is created (R62). -/
def State.lockChecked (n : Nat) (o : Order) (s : State) : State :=
  let p := { o with idleDeadline := none, lastOutcome := none }
  if o.valueDue = 0 then
    ((s.setOrder n p).enterPrinting n).dispatch.respond .ok (byte1 OrderState.printing.code ++ byteOpt byte1 none)
  else
    match s.freeTenderNumber with
    | none => s.refuse .tableFull
    | some t =>
      ((s.setOrder n { p with state := .locked, tender := some t }).createSale t n o.station o.receiptCode o.valueDue).respond .ok
        (byte1 OrderState.locked.code ++ byteOpt byte1 (some t))

/-- LOCK ORDER, on an order that is present (R62). -/
def State.lockOrder (n : Nat) (o : Order) (s : State) : State :=
  if o.state ≠ .open then s.refuse .wrongState
  else if o.lines = [] then s.refuse .wrongState
  else if (o.lines.any fun l => !s.citable l.frame) then s.refuse .frameNotReady
  else if (o.lines.any fun l => !(s.price l.product).enabled) then s.refuse .productDisabled
  else if (s.line o.station).state ≠ .up then s.refuse .lineDown
  else s.lockChecked n o

/-- LOCK_ORDER (R62). -/
def execLockOrder (order : Byte) (s : State) : Host.Outcome State Fault Refusal :=
  .next (s.request (.lockOrder order) (State.withOrder order State.lockOrder)).grantAll

/-- The waiting copies of a line are withdrawn (R65). -/
def OrderLine.withdraw (l : OrderLine) : OrderLine := { l with withdrawn := l.withdrawn + l.waiting }

/-- CANCEL ORDER, on an order that is present (R65). -/
def State.cancelOrder (n : Nat) (o : Order) (s : State) : State :=
  match o.state with
  | .open => (s.setOrder n { o with state := .abandoned, finish := some .cancelled, idleDeadline := none }).respond .ok []
  | .locked =>
    if o.cancelRequested then s.respond .ok []
    else
      let s1 := s.setOrder n { o with cancelRequested := true }
      (match o.tender with
        | some t => s1.withdrawTender t
        | none => s1).respond .ok []
  | .printing =>
    (((s.setOrder n { o with cancelRequested := true, lines := o.lines.map OrderLine.withdraw }).removePairs n).settle n).respond
      .ok []
  | .settling | .closed | .abandoned => s.refuse .wrongState

/-- CANCEL_ORDER (R65). -/
def execCancelOrder (order : Byte) (s : State) : Host.Outcome State Fault Refusal :=
  .next (s.request (.cancelOrder order) (State.withOrder order State.cancelOrder))

/-! ### Reading, finding and retiring (R54, R72, R73) -/

/-- The fields of a line as READ ORDER sends them (section 3.1). -/
def OrderLine.bytes (l : OrderLine) : List Byte :=
  byte1 l.number ++ byte2 l.frame ++ byte1 l.product.val ++ byte2 l.unitPrice ++ byte1 l.fit.code ++ byte1 l.quantity ++
    byte1 l.delivered ++ byte1 l.failed ++ byte1 l.withdrawn ++ byte1 l.inFlight ++ byte1 l.reprintsUsed ++
    byteOpt (fun (c : SheetCause) => byte1 c.code) l.lastFault ++ byteFlag l.stopped

/-- The payload of READ ORDER (R73). -/
def Order.bytes (n : Nat) (o : Order) : List Byte :=
  byte1 n ++ byte4 o.receiptCode ++ byte1 o.station.val ++ byte1 o.priority.code ++ byte1 o.state.code ++ byteOpt byte1 o.nextLine ++
    byte1 o.reprintAllowance ++ byteOpt byte4 o.admission ++ byte4 o.valueDue ++ byte4 o.valueAuthorized ++
    byte4 o.valueDelivered ++ byte4 o.valueCaptured ++ byteOpt byte1 o.tender ++ byteFlag o.cancelRequested ++
    byteOpt (fun (c : TenderOutcome) => byte1 c.code) o.lastOutcome ++ byteOpt (fun (c : Finish) => byte1 c.code) o.finish ++
    byteOpt (fun ms => byte2 (toSeconds ms)) o.idleDeadline ++ byte1 o.lines.length ++ o.lines.flatMap OrderLine.bytes

/-- READ_ORDER (R73). -/
def execReadOrder (order : Byte) (s : State) : Host.Outcome State Fault Refusal :=
  .next (s.request (.readOrder order) (State.withOrder order fun n o t => t.respond .ok (o.bytes n)))

/-- FIND ORDER (R54). -/
def State.findOrder (code : Word32) (s : State) : State :=
  if Config.maxMoney < code.toNat then s.refuse .badArgument
  else
    match s.book.orders.find? fun e => e.2.receiptCode == code.toNat with
    | none => s.refuse .noSuchRecord
    | some e => s.respond .ok (byte1 e.1 ++ byte1 e.2.station.val ++ byte1 e.2.state.code)

/-- FIND_ORDER (R54). -/
def execFindOrder (code : Word32) (s : State) : Host.Outcome State Fault Refusal :=
  .next (s.request (.findOrder code) (State.findOrder code))

/-- RETIRE ORDER, on an order that is present (R72). -/
def State.retireOrder (n : Nat) (o : Order) (s : State) : State :=
  match o.state with
  | .closed | .abandoned =>
    let s1 := s.forEach o.lines fun l t => t.lowerReference l.frame
    let s2 := match o.tender with
      | some t => s1.freeTender t
      | none => s1
    ({ s2 with book := { s2.book with orders := erase n s2.book.orders } }.setFlag (orderFlag n)).respond .ok []
  | .open | .locked | .printing | .settling => s.refuse .wrongState

/-- RETIRE_ORDER (R72). -/
def execRetireOrder (order : Byte) (s : State) : Host.Outcome State Fault Refusal :=
  .next (s.request (.retireOrder order) (State.withOrder order State.retireOrder)).grantAll

/-! ### The Price Table (R55) -/

/-- SET PRICE (R55); a changed media kind or enabled lets the arbiters run (R141). -/
def State.setPrice (product enabled media : Byte) (price : Word16) (s : State) : State :=
  match toFin 16 product.toNat, toFlag enabled with
  | some p, some on =>
    if 1 ≤ media.toNat ∧ media.toNat ≤ 7 then
      { s with book := { s.book with
          prices := s.book.prices.set p { enabled := on, media := media.toNat, price := price.toNat } } }.dispatch.respond .ok []
    else s.refuse .badArgument
  | _, _ => s.refuse .badArgument

/-- SET_PRICE (R55). -/
def execSetPrice (product enabled media : Byte) (price : Word16) (s : State) : Host.Outcome State Fault Refusal :=
  .next (s.request (.setPrice product enabled media price) (State.setPrice product enabled media price)).grantAll

/-- An entry as READ PRICES sends it (R55). -/
def Price.bytes (p : Price) : List Byte := byteFlag p.enabled ++ byte1 p.media ++ byte2 p.price

/-- READ_PRICES (R55). -/
def execReadPrices (s : State) : Host.Outcome State Fault Refusal :=
  .next (s.request .readPrices fun t => t.respond .ok (t.book.prices.toList.flatMap Price.bytes))

end Sys2Proof.Machine
end

