-- ==== Sys2Proof/Machine/ThermalOps.lean ====
section
/-! DEFINITION. The shared operations of the management bus and the Thermal Watch (chapter 8): claims, results, polls, readings, the high
latches, the hold evaluation and the present mask. -/

namespace Sys2Proof.Machine

/-! ### Claims (R159) -/

/-- The device address of the settings EEPROM (section 8.1). -/
def eepromAddress : Byte := 0x56

/-- The device address of a sensor (section 8.1). -/
def sensorAddress (i : Fin 4) : Byte := BitVec.ofNat 8 (0x4C + i.val)

/-! ### What the part sends on the bus (section 8.1) -/

/-- One item of a transfer as it stands on the bus. -/
inductive BusItem where
  /-- A start, or a repeated start where no stop has come before it. -/
  | start
  /-- A byte the part sends; its receiver acknowledges it. -/
  | sends (b : Byte)
  /-- So many bytes the part reads, each acknowledged but the last. -/
  | reads (count : Nat)
  /-- So many clock pulses with SDA released. -/
  | clocks (count : Nat)
  | stop
  deriving DecidableEq, Repr

/-- The address byte of a device: its address in the upper seven bits, and 1 to read in the lowest (section 8.1). -/
def addressByte (address : Byte) (read : Bool) : Byte := (address <<< 1) ||| (if read then 1 else 0)

/-- A sensor read: the pointer byte 0x00 is written, and after a repeated start two bytes are read (R161). -/
def sensorReadItems (i : Fin 4) : List BusItem :=
  [.start, .sends (addressByte (sensorAddress i) false), .sends 0x00, .start, .sends (addressByte (sensorAddress i) true), .reads 2, .stop]

/-- A read of the EEPROM: the two address bytes are written, and after a repeated start the bytes are read (R170). -/
def eepromReadItems (address count : Nat) : List BusItem :=
  [.start, .sends (addressByte eepromAddress false)] ++ (byte2 address).map .sends ++
    [.start, .sends (addressByte eepromAddress true), .reads count, .stop]

/-- The write of SETTINGS WRITE: the two address bytes and the data bytes (R171 step 1). -/
def eepromWriteItems (address : Nat) (data : List Byte) : List BusItem :=
  [.start, .sends (addressByte eepromAddress false)] ++ (byte2 address ++ data).map .sends ++ [.stop]

/-- One attempt of the acknowledgement polling (R171 step 2). -/
def ackPollItems : List BusItem := [.start, .sends (addressByte eepromAddress false), .stop]

/-- A bus recovery: nine clock pulses and a stop condition. The automatic recovery of a transfer that finds SDA low is the same, before its
start condition (R160). -/
def recoveryItems : List BusItem := [.clocks 9, .stop]

/-- Bytes of the image after the option byte: 79 for a short load and 143 for a long one (R190). -/
def imageRest (option : Byte) : Nat := if option = 0x02 then 143 else 79

/-- What the transfer of a claim sends, option being the option byte the loader holds. While the write of a SETTINGS WRITE has not come to
its stop it is the write, and then one polling attempt after another (R161, R170, R171, R189, R190, R160). -/
def Claim.items (option : Option Byte) (writing : Bool) : Claim → List BusItem
  | .poll i _ => sensorReadItems i
  | .loadOption => eepromReadItems 0x000 1
  | .loadImage => eepromReadItems 0x001 (imageRest (option.getD 0))
  | .settingsRead address count => eepromReadItems address count
  | .settingsWrite address data => if writing then eepromWriteItems address data else ackPollItems
  | .recover => recoveryItems

/-- The output of the bus: what the transfer in progress sends, nothing where the bus is free. -/
def State.busOut (s : State) : List BusItem :=
  match s.bus.current with
  | some c => c.items s.loader.option s.bus.writeLeft.isSome
  | none => []

/-- The claim is the poller's. -/
def Claim.isPoll : Claim → Bool
  | .poll _ _ => true
  | _ => false

/-- Milliseconds from the start of a SETTINGS WRITE to the stop of its write at 100 kHz, rounded up: nine clocks for each of the address
byte, the two address bytes and the data bytes, and one each for the start and the stop (R171; log entry 26). -/
def writeMs (data : List Byte) : Nat := ceilDiv (9 * (3 + data.length) + 2) Config.busClocksPerMs

/-- A transfer begins; of a SETTINGS WRITE the write comes first, and its polling window starts at the stop of the write (R171). -/
def Bus.begin (c : Claim) (b : Bus) : Bus :=
  { b with
    current := some c
    writeLeft := match c with
      | .settingsWrite _ data => some (writeMs data)
      | _ => none
    ackWindow := none }

/-- The transfer of the claim at the head of the queue begins where the bus is free (R159). -/
def Bus.serve (b : Bus) : Bus :=
  match b.current, b.claims with
  | none, c :: rest => { b with claims := rest }.begin c
  | _, _ => b

/-- A claim arrives: its transfer begins at once on a free bus, and otherwise it joins the tail of the queue (R159). -/
def State.claimBus (c : Claim) (s : State) : State :=
  { s with bus := { s.bus with claims := s.bus.claims ++ [c] }.serve }

/-- The transfer in progress ends. -/
def State.endTransfer (s : State) : State := { s with bus := { s.bus with current := none, writeLeft := none, ackWindow := none } }

/-- The next transfer begins (R159). -/
def State.serveBus (s : State) : State := { s with bus := s.bus.serve }

/-- A poll claim that waits is withdrawn (R162, R165). -/
def State.withdrawPoll (s : State) : State :=
  { s with bus := { s.bus with claims := s.bus.claims.filter fun c => !c.isPoll } }

/-- The last bus fault is set (R159). -/
def State.setBusFault (f : BusFault) (s : State) : State := { s with bus := { s.bus with lastFault := some f } }

/-- A transfer ends STUCK: BUS_STUCK and the last bus fault are set, whoever claimed it (R159, R160). -/
def State.noteStuck (s : State) : State := (s.setCondition .busStuck).setBusFault .stuck

/-- Polling stops with cause STUCK, and a poll claim that waits is withdrawn (R162). -/
def State.stopStuck (s : State) : State :=
  { s with thermal := { s.thermal with state := .stopped, stopCause := some .stuck, pollTimer := none } }.withdrawPoll

/-- A poll transfer ends STUCK: polling stops in every poll state, of a poller that has become IDLE during the transfer too (R160,
R162). -/
def State.pollStuck (s : State) : State := s.noteStuck.stopStuck

/-- A host or loader transfer ends STUCK: polling stops, but an IDLE poller stays IDLE except during start-up (R160, R162). -/
def State.busStuck (s : State) : State :=
  if s.thermal.state = .idle ∧ s.part.started then s.noteStuck else s.pollStuck

/-- A failed transfer of the host or the loader: the last bus fault is set, and a STUCK bus stops polling (R159, R160). -/
def State.busFailure (r : BusResult) (s : State) : State :=
  match r with
  | .done => s
  | .noAck => s.setBusFault (.noAck eepromAddress)
  | .stuck => s.busStuck

/-! ### The poller (R162) -/

/-- The sensor is present (section 8.2). -/
def State.present (i : Fin 4) (s : State) : Bool := s.params.presentMask.testBit i.val

/-- The first present sensor at or after one, wrapping from 3 to 0 (R162). -/
def State.firstPresent (i : Fin 4) (s : State) : Option (Fin 4) := [i, i + 1, i + 2, i + 3].find? fun k => s.present k

/-- A poll is made: its claim, and the cursor past the sensor (R162). The poller has at most one claim waiting (R159). -/
def State.makePoll (s : State) : State :=
  match s.firstPresent s.thermal.cursor with
  | none => s
  | some i =>
    if s.bus.claims.any Claim.isPoll then s
    else
      { s with thermal := { s.thermal with cursor := (s.firstPresent (i + 1)).getD i } }.claimBus (.poll i false)

/-- The poller becomes RUNNING and makes a poll at once. -/
def State.startPolling (s : State) : State :=
  { s with thermal := { s.thermal with state := .running, stopCause := none } }.makePoll

/-- The poll timer starts while the poller is RUNNING (R162). -/
def State.startPollTimer (s : State) : State :=
  if s.thermal.state = .running then { s with thermal := { s.thermal with pollTimer := some s.params.pollInterval } } else s

/-! ### Sensors and holds (R163, R166, R167) -/

/-- What is kept for a sensor. -/
def State.sensor (i : Fin 4) (s : State) : Sensor := s.thermal.sensors[i]

/-- What is kept for a sensor is changed. -/
def State.modSensor (i : Fin 4) (g : Sensor → Sensor) (s : State) : State :=
  { s with thermal := { s.thermal with sensors := s.thermal.sensors.set i (g (s.sensor i)) } }

/-- A present sensor is stale while its reading is none or its age is above the stale limit (R163). -/
def State.stale (i : Fin 4) (s : State) : Bool :=
  s.present i &&
  (match (s.sensor i).reading, (s.sensor i).age with
    | some _, some a => decide (s.params.staleLimit < a)
    | _, _ => true)

/-- A reading lies from -40 to +125 (R161). -/
def clampReading (t : Int) : Int := if t < -40 then -40 else if 125 < t then 125 else t

/-- The high latch after a reading (R166). -/
def Params.latchAfter (q : Params) (i : Fin 4) (t : Int) (latch : Bool) : Bool :=
  if i = 3 then
    if (q.cabinetLimit : Int) ≤ t then true
    else if t ≤ (q.cabinetLimit : Int) - q.hysteresis then false
    else latch
  else if (q.headHoldLimit : Int) ≤ t ∨ (q.headCutoffLimit : Int) ≤ t then true
  else if t ≤ (q.headHoldLimit : Int) - q.hysteresis ∧ t < (q.headCutoffLimit : Int) then false
  else latch

/-- The sensor that watches an engine's head. -/
def headSensor (e : Fin 3) : Fin 4 := e.castSucc

/-- Engine e is to be held THERMAL_HIGH (R167). -/
def State.wantsHigh (e : Fin 3) (s : State) : Bool :=
  (s.present (headSensor e) && (s.sensor (headSensor e)).latch) || (s.present 3 && (s.sensor 3).latch)

/-- Engine e is to be held THERMAL_STALE (R167). -/
def State.wantsStale (e : Fin 3) (s : State) : Bool := s.stale (headSensor e) || s.stale 3

/-- The thermal holds of one engine are made what the sensors give, THERMAL_HIGH before THERMAL_STALE; a removal that empties the hold
reasons lets the arbiter run (R167). -/
def State.evaluateHold (e : Fin 3) (s : State) : State :=
  let s1 := (s.modEngine e fun r => { r with holds := { r.holds with thermalHigh := s.wantsHigh e } }).dispatch
  (s1.modEngine e fun r => { r with holds := { r.holds with thermalStale := s1.wantsStale e } }).dispatch

/-- The hold evaluation, for engines 0, 1 and 2 in that order (R167). -/
def State.evaluateHolds (s : State) : State := ((s.evaluateHold 0).evaluateHold 1).evaluateHold 2

/-- A reading is taken and judged: the latch, the holds, and a cutoff (R163, R168). -/
def State.takeReading (i : Fin 4) (t : Int) (s : State) : State :=
  let s1 := (s.modSensor i fun x => { reading := some t, age := some 0, latch := s.params.latchAfter i t x.latch }).evaluateHolds
  if h : i.val < 3 then
    if (s.params.headCutoffLimit : Int) ≤ t then s1.cutoff ⟨i.val, h⟩ else s1
  else s1

/-! ### The present mask (R165) -/

/-- The poll in progress of the sensor yields no reading (R163). -/
def voidPoll (i : Fin 4) : Claim → Claim
  | .poll k v => .poll k (v || k == i)
  | c => c

/-- A sensor leaves the mask or joins it: what was kept for it is gone (R165). -/
def State.resetSensor (i : Fin 4) (s : State) : State := s.modSensor i fun _ => Sensor.reset

/-- The poll transfer in progress of a sensor that leaves the mask is void; a claim that still waits is untouched (R163). -/
def State.voidPolls (i : Fin 4) (s : State) : State :=
  { s with bus := { s.bus with current := s.bus.current.map (voidPoll i) } }

/-- A sensor after the mask has changed from old to the mask stored. -/
def State.remaskSensor (old : Nat) (i : Fin 4) (s : State) : State :=
  if old.testBit i.val = s.present i then s
  else if old.testBit i.val then (s.resetSensor i).voidPolls i
  else s.resetSensor i

/-- The poller after the mask has changed (R165). -/
def State.remaskPoller (old : Nat) (s : State) : State :=
  if s.params.presentMask = 0 then
    let s1 := { s with thermal := { s.thermal with pollTimer := none } }.withdrawPoll
    if s1.thermal.state = .stopped then s1 else { s1 with thermal := { s1.thermal with state := .idle } }
  else if old = 0 ∧ s.thermal.state = .idle then s.startPolling
  else s

/-- The present mask has changed from old to the mask stored: sensors leave and join, the holds are evaluated, and the poller follows
(R165). -/
def State.remask (old : Nat) (s : State) : State :=
  (([0, 1, 2, 3] : List (Fin 4)).foldl (fun t i => t.remaskSensor old i) s).evaluateHolds.remaskPoller old

end Sys2Proof.Machine
end

