-- ==== Sys2Proof/Machine/HostPort.lean ====
section
/-! DEFINITION. The commands of the Order Link: the bytes and the chip select of the host's port, and the link's own requests
(chapter 9). -/

namespace Sys2Proof.Machine

/-! ### SDO (R174, R178) -/

/-- The bytes of the response held. -/
def OrderLink.responseBytes (l : OrderLink) : List Byte :=
  match l.response with
  | some r => r.bytes
  | none => []

/-- One byte is clocked: SDO shifts out the next response byte in ANSWERED, and 0xFF otherwise (R178). -/
def State.shiftOut (s : State) : State :=
  let l := s.link
  if l.state = .answered then
    { s with link := { l with
        sdo := l.responseBytes.getD l.shifted 0xFF
        shifted := saturate l.responseBytes.length l.shifted } }
  else s.shiftFiller

/-- Bytes are taken: CS_N is low and RESET_N is not asserted (R174, R187). -/
def State.listens (s : State) : Bool := s.live && s.link.selected

/-- The output SDO: the byte shifted out last, or high impedance while CS_N is high or RESET_N is asserted (R174, R186, R187). -/
def State.sdoPin (s : State) : Option Byte := if s.listens then some s.link.sdo else none

/-! ### The request frame (R176) -/

/-- The CRC of a request frame covers its code, length and payload (section 9.1.1). -/
def requestCrc (code : Byte) (length : Word16) (payload : List Byte) : Word16 :=
  orderLinkCrc (code :: (word2 length ++ payload))

/-- A payload length within the range of its request code. -/
def lengthWithin (range : Nat × Nat) (n : Nat) : Bool := decide (range.1 ≤ n) && decide (n ≤ range.2)

/-- A completed request frame is judged, in the order of the table (R176). -/
def State.judgeRequest (code : Byte) (length : Word16) (payload : List Byte) (crc : Word16) (s : State) : State :=
  if crc ≠ requestCrc code length payload then s.refuse .badFrame
  else
    match requestLengths code with
    | none => s.refuse .unknownRequest
    | some range =>
      if s.part.started = false ∧ code ≠ 0x01 then s.refuse .notReady
      else if lengthWithin range payload.length = false then s.refuse .badLength
      else
        match decodeRequest code payload with
        | some i => s.handOver i
        | none => s.refuse .badLength

/-- The payload length in the bytes of a request frame after its mark, once they hold it. -/
def frameLength : List Byte → Option Nat
  | _ :: a :: b :: _ => some (toWord16 a b).toNat
  | _ => none

/-- The bytes of a request frame after its mark are complete: code, length, payload and CRC. -/
def frameComplete (bytes : List Byte) : Bool :=
  match frameLength bytes with
  | some n => decide (bytes.length = n + 5)
  | none => false

/-- A complete request frame is judged by its bytes after the mark, and the buffer is empty again (R176). -/
def State.judgeFrame (bytes : List Byte) (s : State) : State :=
  let t := { s with link := { s.link with buffer := [] } }
  match bytes with
  | code :: a :: b :: rest =>
    let n := rest.length - 2
    t.judgeRequest code (toWord16 a b) (rest.take n) (toWord16 (rest.getD n 0) (rest.getD (n + 1) 0))
  | _ => t

/-- A byte is taken into the request frame: a payload length above 600 stops the frame until CS_N rises, and the last CRC byte completes it
(R175, R176). -/
def State.takeByte (b : Byte) (s : State) : State :=
  let bytes := s.link.buffer ++ [b]
  if s.link.overlong then s
  else if (frameLength bytes).any fun n => decide (Config.maxPayload < n) then
    { s with link := { s.link with overlong := true, buffer := bytes } }
  else if frameComplete bytes then s.judgeFrame bytes
  else { s with link := { s.link with buffer := bytes } }

/-! ### Bytes (R175) -/

/-- One byte is clocked in while the part listens, and one shifted out with it. In IDLE or ANSWERED 0x5D begins a request frame and any other
byte is filler; in RECEIVING the byte is taken into the frame; in WORKING any byte but 0xFF sets LINK_OVERRUN (R175, R178). -/
def State.clockByte (b : Byte) (s : State) : State :=
  let t := s.shiftOut
  match s.link.state with
  | .idle | .answered => if b = 0x5D then t.beginFrame else t
  | .receiving => t.takeByte b
  | .working => if b = 0xFF then t else t.setCondition .linkOverrun

/-- Bytes are clocked in one after another. -/
def State.clockBytes (l : List Byte) (s : State) : State := l.foldl (fun t b => t.clockByte b) s

/-- REQUEST_FRAME_START (R175): the byte 0x5D. -/
def execRequestFrameStart (s : State) : Host.Outcome State Fault Refusal := .next (s.whenever s.listens (State.clockByte 0x5D))

/-- OVERRUN_BYTE (R175): a byte other than 0xFF. -/
def execOverrunByte (b : Byte) (s : State) : Host.Outcome State Fault Refusal := .next (s.whenever s.listens (State.clockByte b))

/-- FILLER_BYTE (R175, R178): a byte other than 0x5D. -/
def execFillerByte (b : Byte) (s : State) : Host.Outcome State Fault Refusal := .next (s.whenever s.listens (State.clockByte b))

/-- The bytes of a request frame after its mark (section 9.1.1). -/
def frameBytes (code : Byte) (length : Word16) (payload : List Byte) (crc : Word16) : List Byte :=
  code :: (word2 length ++ payload ++ word2 crc)

/-- REQUEST_FRAME (R176): the bytes of a frame after its mark. Where no frame is being received the command stands for the mark too (log
entry 1). -/
def execRequestFrame (code : Byte) (length : Word16) (payload : List Byte) (crc : Word16) (s : State) :
    Host.Outcome State Fault Refusal :=
  .next (s.whenever s.listens fun t =>
    (if t.link.state = .receiving then t else t.clockByte 0x5D).clockBytes (frameBytes code length payload crc))

/-! ### Chip select (R176, R178, R185) -/

/-- CS_N rises: an incomplete frame is answered BAD_FRAME, and a RESTART whose response has been shifted out whole in this transaction
takes effect (R176, R185). -/
def State.csRises (s : State) : State :=
  let t := { s with link := { s.link with selected := false } }
  if t.part.inReset then t
  else if t.link.state = .receiving then { t with link := { t.link with overlong := false, buffer := [] } }.refuse .badFrame
  else if t.link.state = .answered ∧ t.link.restartDue ∧ t.link.responseBytes.length ≤ t.link.shifted then
    { t with link := { t.link with state := .idle, response := none, shifted := 0 } }.restartEffect
  else t

/-- CS_N_RISE (R176). -/
def execCsNRise (s : State) : Host.Outcome State Fault Refusal := .next (s.whenever s.link.selected State.csRises)

/-- CS_N_FALL (R178): the output returns to the response's first byte. -/
def execCsNFall (s : State) : Host.Outcome State Fault Refusal :=
  .next (s.whenever (!s.link.selected) fun t => { t with link := { t.link with selected := true, shifted := 0 } })

/-! ### The link's own requests (R181 to R185) -/

/-- The ASCII characters HAWLIN HK330 (R183). -/
def partName : List Byte := [0x48, 0x41, 0x57, 0x4C, 0x49, 0x4E, 0x20, 0x48, 0x4B, 0x33, 0x33, 0x30]

/-- The payload of IDENTIFY PART: name, design revision, start-up state and largest payload length (R183). -/
def State.identity (s : State) : List Byte := partName ++ byte1 1 ++ byteFlag s.part.started ++ byte2 Config.maxPayload

/-- IDENTIFY_PART (R183). -/
def execIdentifyPart (s : State) : Host.Outcome State Fault Refusal :=
  .next (s.request .identifyPart fun t => t.respond .ok t.identity)

/-- READ CONDITIONS (R182). -/
def State.readConditions (mask : Word16) (s : State) : State :=
  if 0x03FF < mask.toNat then s.refuse .badArgument
  else
    { s with link := { s.link with conditions := s.link.conditions &&& ~~~(mask.setWidth 10) } }.respond .ok
      (byte2 s.link.conditions.toNat)

/-- READ_CONDITIONS (R182). -/
def execReadConditions (clearMask : Word16) (s : State) : Host.Outcome State Fault Refusal :=
  .next (s.request (.readConditions clearMask) (State.readConditions clearMask))

/-- An entry of TAKE CHANGES: the kind code and the number of a flag (R181). -/
def flagBytes (k : Nat) : List Byte := byte1 (flagName k).1 ++ byte2 (flagName k).2

/-- TAKE CHANGES: the first 32 set flags are reported and cleared (R181). -/
def State.takeChanges (s : State) : State :=
  let taken := s.link.flags.take Config.flagsPerTake
  let rest := s.link.flags.drop Config.flagsPerTake
  { s with link := { s.link with flags := rest } }.respond .ok
    (byte1 taken.length ++ taken.flatMap flagBytes ++ byteFlag (!rest.isEmpty))

/-- TAKE_CHANGES (R181). -/
def execTakeChanges (s : State) : Host.Outcome State Fault Refusal := .next (s.request .takeChanges State.takeChanges)

/-- The highest page of a set. -/
def highestPage (l : List Page) : Option Page := l.getLast?

/-- Excess spares leave the reserve, the highest first, and each is returned (R4). -/
def State.returnExcess : Nat → State → State
  | 0, s => s
  | fuel + 1, s =>
    if s.store.spares.length ≤ s.params.spareTarget then s
    else
      match highestPage s.store.spares with
      | none => s
      | some p => State.returnExcess fuel ({ s with store := { s.store with spares := s.store.spares.dropLast } }.returnPage p)

/-- A changed scrub interval may change the patrol state (R22). That an interval of 0 drops a search that is due is the model's choice: R22
has it made when the step ends, and has the timer, that asked for it, stand still in IDLE (log entry 24). -/
def State.rescrub (s : State) : State :=
  match s.store.patrol with
  | .stopped => s
  | .running =>
    if s.params.scrubInterval = 0 then
      { s with store := { s.store with patrol := .idle, scrubTimer := none, searchDue := false } }
    else s
  | .idle =>
    if 0 < s.params.scrubInterval then { s with store := { s.store with patrol := .running } }.startScrubTimer else s

/-- What the owning block does at once with a new value; old is the value held before (R184). -/
def State.parameterStored (p old : Nat) (s : State) : State :=
  match p with
  | 0 => if old < s.params.spareTarget then s.refill else s.returnExcess s.store.spares.length
  | 1 => s.judgeLow
  | 3 => s.rescrub
  | 7 => { s with book := { s.book with lastCode := none } }
  | 11 => s.remask old
  | 16 => s.evaluateHolds
  | _ => s

/-- A parameter is stored: the PART flag is set, and the owning block acts (R184, R179). -/
def State.storeParameter (p v : Nat) (s : State) : State :=
  (({ s with params := s.params.set p v }.setFlag partFlag).parameterStored p (s.params.get p)).respond .ok []

/-- SET PARAMETER (R184). -/
def State.setParameter (parameter : Byte) (value : Word32) (s : State) : State :=
  let p := parameter.toNat
  let v := value.toNat
  if paramAdmits p v = false then s.refuse .badArgument
  else if v = s.params.get p then s.respond .ok []
  else s.storeParameter p v

/-- SET_PARAMETER (R184). -/
def execSetParameter (parameter : Byte) (value : Word32) (s : State) : Host.Outcome State Fault Refusal :=
  .next (s.request (.setParameter parameter value) (State.setParameter parameter value)).grantAll

/-- READ PARAMETER (R184). -/
def State.readParameter (parameter : Byte) (s : State) : State :=
  if 17 < parameter.toNat then s.refuse .badArgument else s.respond .ok (byte4 (s.params.get parameter.toNat))

/-- READ_PARAMETER (R184). -/
def execReadParameter (parameter : Byte) (s : State) : Host.Outcome State Fault Refusal :=
  .next (s.request (.readParameter parameter) (State.readParameter parameter))

/-- RESTART: answered at once, it takes effect later (R185). -/
def State.restart (s : State) : State :=
  (s.respond .ok []) |> fun t => { t with link := { t.link with restartDue := true } }

/-- RESTART (R185). -/
def execRestart (s : State) : Host.Outcome State Fault Refusal := .next (s.request .restart State.restart)

end Sys2Proof.Machine
end

