-- ==== Sys2Proof/Machine/PayLines.lean ====
section
/-! DEFINITION. The commands of the payment lines (chapter 4). -/

namespace Sys2Proof.Machine

/-! ### Line requests (R78, R91) -/

/-- SET LINE (R78). -/
def State.setLineMode (line : Byte) (rate : Word32) (dataBits parity stopBits enable : Byte) (s : State) : State :=
  match toFin 4 line.toNat, toLineMode rate dataBits parity stopBits, toFlag enable with
  | some i, some m, some on =>
    if (s.line i).mode = some m ∧ (s.line i).enable = on then s.respond .ok []
    else (s.applyMode i m on).respond .ok []
  | _, _, _ => s.refuse .badArgument

/-- SET_LINE (R78). -/
def execSetLine (line : Byte) (rate : Word32) (dataBits parity stopBits enable : Byte) (s : State) :
    Host.Outcome State Fault Refusal :=
  .next (s.request (.setLine line rate dataBits parity stopBits enable) (State.setLineMode line rate dataBits parity stopBits enable))

/-- The fields of a mode as READ LINE sends them (R91). -/
def LineMode.bytes (m : LineMode) : List Byte := byte4 m.rate ++ byte1 m.dataBits ++ byte1 m.parity.code ++ byte1 m.stopBits

/-- The error flags as a mask: PARITY, FRAMING, OVERRUN (R91; log entry 18). -/
def PayLine.errorMask (p : PayLine) : Nat :=
  (if p.parityError then 1 else 0) + (if p.framingError then 2 else 0) + (if p.overrunError then 4 else 0)

/-- The payload of READ LINE; DSR is the named value ACTIVE or INACTIVE (R91; log entry 18). -/
def PayLine.bytes (i : Fin 4) (p : PayLine) : List Byte :=
  byte1 i.val ++ byteOpt LineMode.bytes p.mode ++ byteFlag p.enable ++ byte1 p.state.code ++ byte1 (if p.dsr then 0 else 1) ++
    byte1 p.errorMask ++ byte1 p.discarded ++ byte1 p.unexpected ++ byteOpt byte1 p.lastDecline

/-- READ LINE with clear empties the error flags and both counters (R91). -/
def PayLine.cleared (p : PayLine) : PayLine :=
  { p with parityError := false, framingError := false, overrunError := false, discarded := 0, unexpected := 0 }

/-- READ LINE (R91). -/
def State.readLine (line clear : Byte) (s : State) : State :=
  match toFin 4 line.toNat, toFlag clear with
  | some i, some c =>
    let payload := (s.line i).bytes i
    (if c then s.modLine i PayLine.cleared else s).respond .ok payload
  | _, _ => s.refuse .badArgument

/-- READ_LINE (R91). -/
def execReadLine (line clear : Byte) (s : State) : Host.Outcome State Fault Refusal :=
  .next (s.request (.readLine line clear) (State.readLine line clear))

/-! ### DSR and breaks (R80, R81) -/

/-- The DSR input takes a level; a line that samples it starts or cancels its filter (R80). -/
def PayLine.dsrTakes (samples active : Bool) (p : PayLine) : PayLine :=
  if samples ∧ p.mode.isSome then
    { p with dsrInput := active, dsrFilter := if active = p.dsr then none else some Config.dsrFilterMs }
  else { p with dsrInput := active }

/-- DSR_CHANGE (R80). -/
def execDsrChange (line : Fin 4) (active : Bool) (s : State) : Host.Outcome State Fault Refusal :=
  .next (s.whenever ((s.line line).dsrInput != active) fun t => t.modLine line (PayLine.dsrTakes t.live active))

/-- DSR takes the new level, and the line may enter UP or leave it (R80). -/
def State.dsrQualified (i : Fin 4) (s : State) : State :=
  let p := s.line i
  let active := p.dsrInput
  let s1 := s.modLine i fun q => { q with dsr := active, dsrFilter := none }
  if active ∧ p.state = .down ∧ p.enable then (s1.modLine i fun q => { q with state := .up }).lineUp i
  else if active = false ∧ p.state = .up then (s1.modLine i fun q => { q with state := .down }).leaveUp i .down
  else s1

/-- DSR_FILTER_EXPIRY (R80). -/
def execDsrFilterExpiry (line : Fin 4) (s : State) : Host.Outcome State Fault Refusal :=
  .next (s.whenever (s.live && (s.line line).dsrFilter.isSome) fun t => t.dsrQualified line)

/-- The line enters BROKEN (R81). -/
def State.breakLine (i : Fin 4) (s : State) : State :=
  let s1 := s.modLine i fun q => { q with state := .broken }
  if (s.line i).state = .up then s1.leaveUp i .broken else s1

/-- BREAK_DETECTED (R81): in DOWN or UP, while enabled. -/
def execBreakDetected (line : Fin 4) (s : State) : Host.Outcome State Fault Refusal :=
  .next (s.whenever
    (s.live && (s.line line).enable && decide ((s.line line).state = .down ∨ (s.line line).state = .up))
    fun t => t.breakLine line)

/-- The break ends: the line enters UP where DSR is ACTIVE, and DOWN otherwise (R81). -/
def State.endBreak (i : Fin 4) (s : State) : State :=
  if (s.line i).dsr then (s.modLine i fun q => { q with state := .up }).lineUp i
  else s.modLine i fun q => { q with state := .down }

/-- BREAK_END (R81). -/
def execBreakEnd (line : Fin 4) (s : State) : Host.Outcome State Fault Refusal :=
  .next (s.whenever (s.live && decide ((s.line line).state = .broken)) fun t => t.endBreak line)

/-! ### Received characters (R83, R84, R88) -/

/-- A character joins the receive FIFO, or is lost to an overrun (R84). -/
def PayLine.queueChar (value : Byte) (errored : Bool) (p : PayLine) : PayLine :=
  if p.rxFifo.length < Config.receiveFifoLimit then { p with rxFifo := p.rxFifo ++ [(value, errored)] }
  else { p with overrunError := true, overrunMark := true }

/-- A character is received at a line's mode: its error flags are set, and in UP it goes to the FIFO (R83). -/
def PayLine.receive (m : LineMode) (value : Byte) (parityBit stopBit : Bool) (p : PayLine) : PayLine :=
  let parity := m.parityWrong value parityBit
  let framing := !stopBit
  let q := { p with parityError := p.parityError || parity, framingError := p.framingError || framing }
  if p.state = .up then q.queueChar (m.dataValue value) (parity || framing) else q

/-- RX_CHARACTER (R83): in UP, or in DOWN while enabled. -/
def execRxCharacter (line : Fin 4) (value : Byte) (parityBit stopBit : Bool) (s : State) : Host.Outcome State Fault Refusal :=
  .next (match (s.line line).mode with
    | some m =>
      s.whenever (s.live && (s.line line).enable && decide ((s.line line).state = .down ∨ (s.line line).state = .up))
        fun t => t.modLine line (PayLine.receive m value parityBit stopBit)
    | none => s)

/-- The assembler takes one character (R88). -/
def PayLine.assemble (c : Byte) (errored : Bool) (p : PayLine) : PayLine :=
  match p.assembly with
  | .hunting => if c = 0x02 ∧ errored = false then { p with assembly := .body [] false } else p
  | .body chars bad =>
    if c = 0x03 ∧ errored = false then { p with assembly := .check chars bad }
    else if c = 0x02 ∧ errored = false then { p.countDiscard with assembly := .body [] false }
    else if Config.overlongBody ≤ chars.length + 1 then { p.countDiscard with assembly := .hunting }
    else { p with assembly := .body (chars ++ [c]) (bad || errored) }
  | .check chars bad =>
    match judgeMessage chars c (bad || errored) with
    | some r => { p with assembly := .hunting, handOff := some r }
    | none => { p.countDiscard with assembly := .hunting }

/-- The assembler takes the head of the FIFO, with the overrun mark (R84, R88). -/
def PayLine.takeChar (p : PayLine) : PayLine :=
  match p.rxFifo with
  | [] => p
  | (c, errored) :: rest => { p with rxFifo := rest, overrunMark := false }.assemble c (errored || p.overrunMark)

/-- ASSEMBLE_CHARACTER (R88): in UP, with nothing in the hand-off. -/
def execAssembleCharacter (line : Fin 4) (s : State) : Host.Outcome State Fault Refusal :=
  .next (s.whenever (s.live && decide ((s.line line).state = .up) && (s.line line).handOff.isNone)
    fun t => t.modLine line PayLine.takeChar)

/-! ### Sending (R85, R86) -/

/-- CTS_CHANGE (R85, R86): a due character begins, or its wait starts. -/
def execCtsChange (line : Fin 4) (active : Bool) (s : State) : Host.Outcome State Fault Refusal :=
  .next (s.whenever ((s.line line).cts != active) fun t =>
    t.modLine line fun p => if t.live then { p with cts := active }.beginDue else { p with cts := active })

/-- A character of the first message ends: the next becomes due, or the message has been sent whole (R85). -/
def State.ownCharEnds (i : Fin 4) (s : State) : State :=
  match (s.line i).txQueue with
  | [] => s.modLine i fun p => { p with txChar := .idle }
  | m :: rest =>
    let sent := (s.line i).txSent + 1
    if sent < m.bytes.length then s.modLine i fun p => { p with txChar := .idle, txSent := sent }.beginDue
    else (s.modLine i fun p => { p with txChar := .idle, txSent := 0, txQueue := rest }.beginDue).messageSent i m

/-- TX_CHARACTER_END (R85). -/
def execTxCharacterEnd (line : Fin 4) (s : State) : Host.Outcome State Fault Refusal :=
  .next (match s.live, (s.line line).txChar with
    | true, .own => s.ownCharEnds line
    | true, .orphan _ => s.modLine line fun p => { p with txChar := .idle }.beginDue
    | _, _ => s)

/-- The CTS wait expires: the transmit queue is abandoned (R86). -/
def State.ctsExpired (i : Fin 4) (s : State) : State :=
  let reports := (s.line i).givenUp
  (s.modLine i PayLine.emptyQueue).messagesNotSent i .ctsLimit reports

/-- CTS_WAIT_EXPIRY (R86). -/
def execCtsWaitExpiry (line : Fin 4) (s : State) : Host.Outcome State Fault Refusal :=
  .next (s.whenever (s.live && (s.line line).ctsWait.isSome) fun t => t.ctsExpired line)

end Sys2Proof.Machine
end

