-- ==== Sys2Proof/Machine/StartUp.lean ====
section
/-! DEFINITION. Power-on, start-up and the configuration load (chapter 10), and the pin reset of every block. -/

namespace Sys2Proof.Machine

/-! ### Power-on (R188) -/

/-- The levels at the part's input pins, kept through power-on and pin reset: DET_N, DSR, CTS, PRES_N and CS_N. -/
def State.withInputsOf (old new : State) : State :=
  { new with
    link := { new.link with selected := old.link.selected }
    cards := { new.cards with
      slots := new.cards.slots.zipWith (fun a b => { a with detect := b.detect }) old.cards.slots }
    lines := new.lines.zipWith (fun a b => { a with dsrInput := b.dsrInput, cts := b.cts }) old.lines
    engines := new.engines.zipWith (fun a b => { a with presInput := b.presInput }) old.engines }

/-- Every block in its power-on state. With RESET_N active start-up waits for its release, and otherwise the loader's first transfer is in
progress (R188, R189). That the loader stands in READING_OPTION without a transfer while RESET_N is held before start-up begins is the
model's choice (log entry 41). The levels at the inputs, the commands that wait and the model's choice counter stay. -/
def State.powerUp (inReset : Bool) (s : State) : State :=
  s.withInputsOf
    { State.reset with
      part := { State.reset.part with inReset := inReset }
      bus := if inReset then Bus.reset else State.reset.bus
      choices := s.choices
      pending := s.pending }

/-- POWER_ON (R188). -/
def execPowerOn (s : State) : Host.Outcome State Fault Refusal := .next (s.powerUp s.part.inReset)

/-! ### The end of start-up (R188) -/

/-- Every page number, ascending. -/
@[irreducible] def allPages : List Page := List.finRange 4096

/-- The patrol and its timer begin (R28). -/
def State.startPatrol (s : State) : State :=
  if s.params.scrubInterval = 0 then { s with store := { s.store with patrol := .idle } }
  else { s with store := { s.store with patrol := .running } }.startScrubTimer

/-- The Free Pool and the Spare Reserve are formed with the spare target in force, and STORE_LOW is judged (R28, R188). -/
def State.formPools (s : State) : State :=
  let free := 4096 - s.params.spareTarget
  { s with store := { s.store with freePool := allPages.take free, spares := allPages.drop free } }.judgeLow

/-- Presence is taken from PRES_N as it stands, and a present engine enters HUNTING (R136, R137). -/
def Engine.samplePresence (r : Engine) : Engine :=
  if r.presInput then { r with present := true, presFilter := none }.enterHunting
  else { r with present := false, presFilter := none }.enterAbsent

/-- The slots and the links sample their inputs (R48, R49, R136, R137). -/
def State.sampleInputs (s : State) : State :=
  let s1 := s.forEach (List.finRange 8) State.detectSlot
  s1.forEach (List.finRange 3) fun e t => t.modEngine e Engine.samplePresence

/-- The poller begins where the present mask is not 0000 (R172, R173). -/
def State.beginPolling (s : State) : State :=
  if s.thermal.state = .stopped ∨ s.params.presentMask = 0 then s else s.startPolling

/-- Start-up ends (R188). -/
def State.endStartUp (s : State) : State :=
  let s1 := { s with part := { s.part with started := true } }.setCondition .started
  s1.formPools.startPatrol.sampleInputs.evaluateHolds.beginPolling

/-- Start-up ends when store initialisation and the load have both completed (R188). -/
def State.tryEndStartUp (s : State) : State :=
  if s.part.initDone ∧ s.loader.state = .done ∧ s.part.started = false then s.endStartUp else s

/-- The part is in start-up with RESET_N not asserted. -/
def State.startingUp (s : State) : Bool := s.live && !s.part.started

/-- STORE_INIT_COMPLETE (R28). -/
def execStoreInitComplete (s : State) : Host.Outcome State Fault Refusal :=
  .next (s.whenever (s.startingUp && !s.part.initDone) fun t => { t with part := { t.part with initDone := true } }.tryEndStartUp)

/-! ### The settings image (section 10.3) -/

/-- The number of the byte at an address of the image. -/
def imageByte (image : List Byte) (a : Nat) : Nat := (image.getD a 0).toNat

/-- The number of so many bytes from an address on, most significant first. -/
def imageNumber (image : List Byte) (a : Nat) : Nat → Nat
  | 0 => 0
  | n + 1 => imageByte image a * 256 ^ n + imageNumber image (a + 1) n

/-- The address and size of each parameter, in the order of their numbers (section 10.3). -/
def paramPlaces : List (Nat × Nat) :=
  [(0x01B, 1), (0x01C, 2), (0x01E, 1), (0x01F, 2), (0x021, 1), (0x022, 2), (0x024, 1), (0x025, 4), (0x029, 2), (0x02B, 1),
   (0x02C, 2), (0x02E, 1), (0x02F, 1), (0x030, 1), (0x031, 1), (0x032, 1), (0x033, 2), (0x035, 2)]

/-- The value the image gives a parameter. -/
def imageParam (image : List Byte) (p : Nat) : Nat :=
  match paramPlaces[p]? with
  | some (a, n) => imageNumber image a n
  | none => 0

/-- The bytes of the region sum to 0 modulo 256 (R191 step 1). -/
def sumGood (image : List Byte) : Bool := decide ((image.map fun b => b.toNat).sum % 256 = 0)

/-- A line entry admits its values: zero bits, rate and parity (section 10.3). -/
def lineEntryGood (b0 b1 : Nat) : Bool := decide (b0 / 8 % 8 = 0) && decide (b0 % 8 ≤ 4) && decide (b1 / 16 = 0) && decide (b1 / 2 % 4 ≤ 2)

/-- A Price Table entry admits its values (section 10.3). -/
def priceEntryGood (image : List Byte) (p : Nat) : Bool :=
  let a := 0x050 + 4 * p
  decide (imageByte image a ≤ 1) && decide (1 ≤ imageByte image (a + 1)) && decide (imageByte image (a + 1) ≤ 7)

/-- Every field of the region holds a value its entry admits (R191 step 2). -/
def rangesGood (long : Bool) (image : List Byte) : Bool :=
  ((List.range 4).all fun i => lineEntryGood (imageByte image (0x010 + 2 * i)) (imageByte image (0x011 + 2 * i))) &&
  ((List.range 3).all fun e => decide (imageByte image (0x018 + e) / 32 = 0)) &&
  ((List.range 18).all fun p => paramAdmits p (imageParam image p)) &&
  ((List.range 25).all fun k => decide (imageByte image (0x037 + k) = 0)) &&
  (!long || (List.range 16).all fun p => priceEntryGood image p)

/-- The rate of a line entry's code (section 10.3). -/
def rateOfCode (n : Nat) : Nat :=
  if n = 0 then 9600 else if n = 1 then 19200 else if n = 2 then 38400 else if n = 3 then 57600 else 115200

/-- The parity of a line entry's code (section 10.3). -/
def parityOfCode (n : Nat) : Parity := if n = 0 then .none else if n = 1 then .even else .odd

/-- The mode of a line entry (section 10.3). -/
def entryMode (b0 b1 : Nat) : LineMode :=
  { rate := rateOfCode (b0 % 8), dataBits := if b1 % 2 = 1 then 8 else 7, parity := parityOfCode (b1 / 2 % 4),
    stopBits := if b1 / 8 % 2 = 1 then 2 else 1 }

/-- The parameters of the image are stored, without the immediate actions of SET PARAMETER (R192). -/
def applyParams (image : List Byte) (q : Params) : Params := (List.range 18).foldl (fun r p => r.set p (imageParam image p)) q

/-- A line whose entry has mode given set receives its mode and enable (R192). -/
def State.applyLineEntry (image : List Byte) (i : Fin 4) (s : State) : State :=
  let b0 := imageByte image (0x010 + 2 * i.val)
  let b1 := imageByte image (0x011 + 2 * i.val)
  if b0 / 128 = 1 then s.applyMode i (entryMode b0 b1) (decide (b0 / 64 % 2 = 1)) else s

/-- An engine's enabled and station mask are replaced by its entry (R192). -/
def State.applyEngineEntry (image : List Byte) (e : Fin 3) (s : State) : State :=
  let b := imageByte image (0x018 + e.val)
  s.modEngine e fun r => { r with enabled := decide (b / 16 % 2 = 1), stationMask := BitVec.ofNat 4 b }

/-- A Price Table entry of a long image (section 10.3). -/
def priceOfImage (image : List Byte) (p : Fin 16) : Price :=
  let a := 0x050 + 4 * p.val
  { enabled := decide (imageByte image a = 1), media := imageByte image (a + 1), price := imageNumber image (a + 2) 2 }

/-- The loader is done with an outcome. -/
def State.loadDone (o : LoadOutcome) (s : State) : State :=
  { s with loader := { state := .done, option := none, outcome := some o } }.tryEndStartUp

/-- The checked image is handed to the owning blocks (R192). -/
def State.applyImage (long : Bool) (image : List Byte) (s : State) : State :=
  let s1 := { s with params := applyParams image s.params }
  let s2 := s1.forEach (List.finRange 4) (State.applyLineEntry image)
  let s3 := s2.forEach (List.finRange 3) (State.applyEngineEntry image)
  if long then { s3 with book := { s3.book with prices := Vector.ofFn (priceOfImage image) } } else s3

/-- The image is judged, and applied or refused whole (R191, R192). -/
def State.judgeImage (long : Bool) (image : List Byte) (s : State) : State :=
  if sumGood image && rangesGood long image then
    (s.applyImage long image).loadDone (if long then .loadedLong else .loadedShort)
  else (s.setCondition .settingsBad).loadDone .badImage

/-! ### The load (R189, R190) -/

/-- A load transfer has failed: NO_SETTINGS is set and the load is done (R189, R190). -/
def State.loadUnanswered (r : BusResult) (s : State) : State :=
  ((s.busFailure r).setCondition .noSettings).loadDone .noAnswer

/-- The option byte asks for an image, or for nothing (R189). -/
def State.optionTaken (option : Byte) (s : State) : State :=
  if option = 0x01 ∨ option = 0x02 then
    { s with loader := { state := .readingImage, option := some option, outcome := none } }.claimBus .loadImage
  else s.loadDone .notAsked

/-- OPTION_READ_END (R189). -/
def execOptionReadEnd (result : BusResult) (option : Byte) (s : State) : Host.Outcome State Fault Refusal :=
  .next (s.whenever (s.startingUp && decide (s.bus.current = some .loadOption)) fun t =>
    let u := t.endTransfer
    if result = .done then u.optionTaken option else u.loadUnanswered result)

/-- IMAGE_READ_END (R190): a transfer that ends DONE has read the rest of the region. -/
def execImageReadEnd (result : BusResult) (data : List Byte) (s : State) : Host.Outcome State Fault Refusal :=
  .next (match s.loader.option with
    | some option =>
      s.whenever (s.startingUp && decide (s.bus.current = some .loadImage) &&
          (decide (result ≠ .done) || data.length == imageRest option)) fun t =>
        let u := t.endTransfer
        if result = .done then u.judgeImage (decide (option = 0x02)) (option :: data) else u.loadUnanswered result
    | none => s)

/-! ### The pin reset of each block -/

/-- The Order Link while RESET_N is asserted: what is received, worked or held is discarded (R187). -/
def OrderLink.pinReset (l : OrderLink) : OrderLink :=
  { l with state := .idle, overlong := false, buffer := [], handed := none, working := none, response := none, shifted := 0,
           sdo := 0xFF, restartDue := false }

/-- A sheet link and its raster channel (R137, R158); the STREAMING sheets are left to their outcomes. That the link stands ABSENT with
no presence while RESET_N is asserted is the model's choice: the rule resolves both at the release alone (log entry 45). -/
def Engine.pinReset (relink : Nat) (r : Engine) : Engine :=
  let sheets := r.sheets.map fun h => if h.state = .sent then { h with state := .unknown, abortSent := false } else h
  { r with
    link := .absent
    lastLoss := if r.link = .online then some .reset else r.lastLoss
    head := none
    bufferFree := 0
    credit := 0
    sheets := sheets
    relinkTimer := if sheets.any fun h => decide (h.state = .unknown) then some relink else none
    receiveFaults := 0
    strayOutcomes := 0
    protocolErrors := 0
    present := false
    presFilter := none
    helloTimer := none
    silenceTimer := none
    control := []
    sheetPath := none
    tx := .still
    rx := .off
    rxBuffer := []
    taken := none
    channel := Channel.reset }

/-- The frames that satisfy a test. -/
def State.framesWhere (test : Frame → Bool) (s : State) : List Nat := (s.store.frames.filter fun e => test e.2).map (·.1)

/-- Every page's reader count is 0 and every frame's pin count is 0 (R29 step 2). -/
def State.dropCounts (s : State) : State :=
  { s with store := { s.store with
      attrs := (s.store.attrs.map fun e => (e.1, { e.2 with readers := 0 })).filter fun e => e.2 ≠ PageAttr.clean
      frames := s.store.frames.map fun e => (e.1, { e.2 with pins := 0 }) } }

/-- The pages of the Retiring Set go to the Bad Set (R29 step 2). -/
def State.retireAllRetiring (s : State) : State :=
  { s with store := { s.store with
      bad := s.store.retiringPages.foldl (fun l p => insertAsc Fin.val p l) s.store.bad
      retiringPages := [] } }

/-- A scrub step in progress is abandoned, and the patrol resumes in its kept state (R29 step 6). -/
def State.abandonScrub (s : State) : State :=
  let s1 := match s.store.scrubStep with
    | some st => s.stopOnErrors st
    | none => s
  { s1 with store := { s1.store with scrubStep := none, scrubWaiting := none, searchDue := false } }.startScrubTimer

/-- The errors that the portion in progress of a scrub step has found count in the step (R29 step 6). -/
def State.countScrub (e : ReadErrors) (s : State) : State :=
  { s with store := { s.store with scrubStep := s.store.scrubStep.map (ScrubStep.count s.stopSet e) } }

/-- The store access in progress is carried out for so many 8-byte groups, to the end of its current one: a write has stored them, and a
read has met these errors (R29). The record of a host frame stays (R10), and nothing is answered. -/
def State.carryOut (a : Access) (groups : Nat) (first next : ReadErrors) (s : State) : State :=
  match a with
  | .raster _ p _ _ => s.applyErrors p first
  | .scrub p => (s.applyErrors p first).countScrub first
  | .migration page target position =>
    let count := if first.uncorrectable = 0 then min (8 * groups) Config.burstBytes else 0
    (s.copyBytes page target position count).applyErrors page first
  | .hostRead n offset count =>
    match s.frame n with
    | some f => s.applyReads (readPages f.extent offset count first next)
    | none => s
  | .block _ n index data _ =>
    match s.frame n with
    | some f => s.writeFrame f (index * Config.blockBytes) (data.take (8 * groups))
    | none => s
  | .hostWrite n data =>
    match s.frame n with
    | some f => s.writeFrame f f.heldFrom ((f.wholeGroups data).take (8 * groups))
    | none => s
  | .hostSeal n =>
    match s.frame n with
    | some f => s.writeFrame f f.heldFrom (f.sealGroup.take (8 * groups))
    | none => s

/-- The 8-byte groups of an access. -/
def Access.groups : Access → Nat
  | .raster _ _ _ length => ceilDiv length 8
  | .block _ _ _ data _ => ceilDiv data.length 8
  | .hostWrite _ data => ceilDiv data.length 8
  | .hostSeal _ => 1
  | .hostRead _ offset count => (offset + count - 1) / 8 - offset / 8 + 1
  | .migration _ _ _ | .scrub _ => Config.burstBytes / 8

/-- A free value up to a bound (log entry 42). -/
def freeUpTo (c bound : Nat) : Nat := Config.freeChoice c % (bound + 1)

/-- The errors a read has met in so many groups: free values (log entry 42). -/
def freeErrors (c groups : Nat) : ReadErrors := ⟨freeUpTo c groups, freeUpTo (c + 1) (groups - freeUpTo c groups)⟩

/-- A pin reset ends the store access in progress at the end of its current 8-byte group. How many groups that is, the current one
included, and which errors a read has met in them, are free values (R29; log entry 42). -/
def State.stopAccess (s : State) : State :=
  match s.store.port.busy with
  | none => s
  | some a =>
    let c := s.choices
    let groups := 1 + freeUpTo c (a.groups - 1)
    let first := freeErrors (c + 1) groups
    let next := freeErrors (c + 3) (groups - (first.correctable + first.uncorrectable))
    { s.endAccess with choices := c + 5 }.carryOut a groups first next

/-- The Image Store drops every access and resolves what was in progress, in the order of R29. Frames that one step of it names together
are taken in an order chosen freely (log entry 7). Two points are the model's choice: the Migration Queue is emptied before the
abandonment of step 1, so that no next migration is tried (log entry 38), and the frames of step 3 are those of its beginning, so that a host
frame whose pages the return of another's pages grants meanwhile is damaged all the same (log entry 39). -/
def State.resetStore (s : State) : State :=
  let s0 := { s with store := { s.store with port := Port.reset, migrationQueue := [] } }
  let s2 := s0.abandonMigration.retireAllRetiring.dropCounts
  let s3 := s2.forEachFreely
    (s2.framesWhere fun f => decide (f.state = .waitingSpace ∨ f.state = .queued ∨ f.state = .filling))
    fun n t => t.damageFrame n .reset
  let s4 := s3.forEachFreely (s3.framesWhere fun f => decide (f.state = .damaged)) State.returnTest
  let s5 := s4.forEachFreely (s4.framesWhere fun f => f.releasePending) State.retireTest
  s5.abandonScrub

/-- A Slot record is reset: power off, EMPTY, and no session open; the session number and last error are kept (R49). -/
def Slot.pinReset (t : Slot) : Slot :=
  { t with
    state := .empty
    capacity := none
    identity := none
    failedIdentifies := 0
    failedImports := 0
    importQueue := []
    progress := none
    power := false
    debounce := none }

/-- The Card Intake Unit is reset (R49). -/
def Cards.pinReset (c : Cards) : Cards :=
  { slots := c.slots.map Slot.pinReset, links := Vector.replicate 4 CardLink.reset }

/-- Every OPEN order's idle deadline starts afresh (R75). -/
def State.resetBook (s : State) : State :=
  s.forEach (s.book.orders.map (·.1)) fun n t =>
    t.modOrder n fun o => if o.state = .open then { o with idleDeadline := t.freshDeadline } else o

/-- A payment line is reset: its traffic and indications are cleared, and a line with a mode stands in DOWN (R93). That it stands in DOWN
while RESET_N is still asserted is the model's choice: the rule has it enter DOWN at the release (log entry 43). -/
def PayLine.pinReset (p : PayLine) : PayLine :=
  { PayLine.reset with
    mode := p.mode
    enable := p.enable
    state := if p.mode.isSome then .down else .unset
    dsrInput := p.dsrInput
    cts := p.cts }

/-- The Tender Unit is reset: each exchange in progress is placed by R112, and every view is OUT_OF_SERVICE (R118). -/
def State.resetTenders (s : State) : State := s.forEach (List.finRange 4) State.lineLost

/-- A STREAMING sheet ends as FAULT(LINK_LOST); its channel is IDLE already (R158 step 2). -/
def State.failStreaming (e : Fin 3) (s : State) : State :=
  match (s.engine e).streaming with
  | none => s
  | some h => s.closeSheet e h.tag (.fault .linkLost)

/-- The Thermal Watch is reset. That its poll state is IDLE while RESET_N is asserted, of a RUNNING poller too, is the model's choice: the
rule names no state until the release (R173; log entry 40). -/
def Thermal.pinReset : Thermal := Thermal.reset

/-- The blocks resolve what was in progress. The links of the engines leave first, so that no engine is eligible meanwhile (log entry
19). -/
def State.resolvePinReset (s : State) : State :=
  let s1 := { s with
    part := { s.part with inReset := true }
    link := s.link.pinReset
    engines := s.engines.map (Engine.pinReset (seconds s.params.relinkLimit))
    lines := s.lines.map PayLine.pinReset
    bus := Bus.reset
    thermal := Thermal.pinReset }
  let s2 := s1.stopAccess.resetStore
  let s3 := { s2 with cards := s2.cards.pinReset }.resetBook.resetTenders
  s3.forEachFreely ((List.finRange 3).filter fun e => (s3.engine e).streaming.isSome) State.failStreaming

/-- PIN_RESET (R187, R188): RESET_N is asserted. Before start-up has ended it abandons start-up. -/
def execPinReset (s : State) : Host.Outcome State Fault Refusal :=
  .next (s.whenever s.live fun t => if t.part.started then t.resolvePinReset else t.powerUp true)

/-- A line with a mode begins to sample DSR (R93). -/
def PayLine.beginSampling (p : PayLine) : PayLine :=
  if p.mode.isSome ∧ p.dsrInput ≠ p.dsr then { p with dsrFilter := some Config.dsrFilterMs } else p

/-- RESET_N is released after a pin reset of a part that had started (R187, R49, R93, R137, R173). -/
def State.releaseReset (s : State) : State :=
  let s1 := { s with
    part := { s.part with inReset := false }
    lines := s.lines.map PayLine.beginSampling }
  (s1.setAllFlags.setCondition .pinReset).sampleInputs.evaluateHolds.beginPolling

/-- RESET_N is released before start-up has ended: start-up begins from the beginning (R188). -/
def State.beginStartUp (s : State) : State :=
  { s with part := { s.part with inReset := false } }.claimBus .loadOption

/-- PIN_RESET_RELEASE (R187, R188). -/
def execPinResetRelease (s : State) : Host.Outcome State Fault Refusal :=
  .next (s.whenever s.part.inReset fun t => if t.part.started then t.releaseReset else t.beginStartUp)

end Sys2Proof.Machine
end

