-- ==== Sys2Proof/Machine/Replies.lean ====
section
/-! DEFINITION. What a terminal's reply does to the tender it names (sections 5.2 to 5.6). -/

namespace Sys2Proof.Machine

/-- The replies that a purpose expects (section 5.2). -/
def expects : OutKind → Reply → Bool
  | .sale, .approved _ _ | .sale, .declined _ | .sale, .cancelled | .sale, .busy => true
  | .withdraw, .withdrawn | .withdraw, .approved _ _ | .withdraw, .declined _ | .withdraw, .cancelled | .withdraw, .busy => true
  | .capture, .captured _ | .capture, .declined _ => true
  | .void, .voided | .void, .declined _ => true
  | .enquire, .stateNone _ | .enquire, .statePending | .enquire, .stateApproved _ _ | .enquire, .stateCaptured _ => true
  | _, _ => false

/-- An approval is taken: it is recorded, a void is queued where it is short or a withdrawal was asked for, and it is reported
(R101, R96). -/
def State.takeApproval (t : Nat) (r0 : Tender) (a : Nat) (reference : List Byte) (s : State) : State :=
  let short := decide (a < r0.amountRequested)
  let r := { r0 with
    amountApproved := a
    reference := some reference
    money := .approved
    pendingPurpose := none
    shortApproval := r0.shortApproval || short }
  let s1 :=
    if r.withdrawRequested ∨ r.shortApproval then s.queueAfresh t r .void
    else (s.setTender t r.rest).carry (.next r.line)
  if short then s1.reportShort r.order a else s1.reportApproved r.order a

/-- The tender enters DECLINED with a cause, and the line takes its next exchange (R95, R98). -/
def State.endDeclined (t : Nat) (r : Tender) (cause : TenderOutcome) (s : State) : State :=
  (s.declineTender t cause).carry (.next r.line)

/-- The tender enters VOIDED, and the line takes its next exchange (R95, R98). -/
def State.endVoided (t : Nat) (r : Tender) (s : State) : State := (s.voidTender t).carry (.next r.line)

/-- The tender enters CAPTURED, CAPTURED is reported with the amount to capture, and the line takes its next exchange (R107, R111). -/
def State.endCaptured (t : Nat) (r : Tender) (s : State) : State :=
  ((s.setTender t { r.rest with money := .captured, pendingPurpose := none }).reportCaptured r.order
    (r.amountToCapture.getD 0)).carry (.next r.line)

/-- The tender is left unresolved, and the line takes its next exchange (R98). -/
def State.endUnresolved (t : Nat) (r : Tender) (s : State) : State := (s.leaveUnresolved t).carry (.next r.line)

/-- The terminal reports money that the part cannot match: the amount is kept, MONEY_MISMATCH is set, and the tender is left
unresolved (R110, R111). -/
def State.endMismatched (t : Nat) (r : Tender) (a : Nat) (s : State) : State :=
  ((s.setTender t { r with reportedAmount := some a }).setCondition .moneyMismatch).endUnresolved t r

/-- A BUSY reply (R103). -/
def State.replyBusy (t : Nat) (r : Tender) (s : State) : State :=
  match r.purpose with
  | .sale =>
    let q := { r with busyCount := r.busyCount + 1, saleSent := false }
    if q.busyCount < Config.tenderBusyLimit then (s.joinTail t q).carry (.next r.line)
    else (s.setTender t q).endDeclined t q .terminalBusy
  | .withdraw | .capture | .void | .enquire => s.endDeclined t r .withdrawn

/-- A DECLINED reply: it ends a sale, and opens an enquiry about a capture or a void (R102, R107). -/
def State.replyDeclined (t : Nat) (r : Tender) (s : State) : State :=
  match r.purpose with
  | .sale | .withdraw => s.endDeclined t r .declined
  | .capture | .void | .enquire => s.beginEnquiry t

/-- A CAPTURED reply to CAPTURE (R107). -/
def State.replyCaptured (t : Nat) (r : Tender) (a : Nat) (s : State) : State :=
  if r.amountToCapture = some a then s.endCaptured t r else s.beginEnquiry t

/-- A STATE answer of NONE, DECLINED or VOIDED (R108). -/
def State.answerNoMoney (t : Nat) (r : Tender) (status : NoMoney) (s : State) : State :=
  match r.pendingPurpose, status with
  | some .withdraw, _ => s.endDeclined t r .withdrawn
  | some .capture, .voided | some .void, _ => s.endVoided t r
  | _, _ => s.endDeclined t r .declined

/-- A STATE PENDING answer (R109). -/
def State.answerPending (t : Nat) (r : Tender) (s : State) : State :=
  match r.pendingPurpose with
  | some .sale =>
    if r.pendingAnswers + 1 < Config.enquiryLimit then
      s.awaitReply t { r with pendingAnswers := r.pendingAnswers + 1, purpose := .sale, pendingPurpose := none }
    else
      (s.setTender t { r with pendingAnswers := 0, purpose := .withdraw, pendingPurpose := none }).carry (.hand t .withdraw)
  | some .withdraw =>
    if r.pendingAnswers < Config.enquiryLimit then
      (s.setTender t { r with pendingAnswers := r.pendingAnswers + 1, purpose := .withdraw, pendingPurpose := none }).carry
        (.hand t .withdraw)
    else s.endUnresolved t r
  | some .capture | some .void | some .enquire | none => s.carry (.unanswered t)

/-- A STATE APPROVED answer (R110). -/
def State.answerApproved (t : Nat) (r : Tender) (a : Nat) (reference : List Byte) (s : State) : State :=
  match r.pendingPurpose with
  | some .capture | some .void =>
    if a = r.amountApproved then
      let q := { r with reference := some reference, enquiryCount := r.enquiryCount + 1 }
      if q.enquiryCount < Config.enquiryLimit then
        (s.joinTail t { q with purpose := r.pendingPurpose.getD .enquire, pendingPurpose := none }).carry (.next r.line)
      else (s.setTender t q).endUnresolved t q
    else s.endMismatched t r a
  | some .sale | some .withdraw | some .enquire | none => s.takeApproval t r a reference

/-- A STATE CAPTURED answer (R111). -/
def State.answerCaptured (t : Nat) (r : Tender) (a : Nat) (s : State) : State :=
  if r.pendingPurpose = some .capture ∧ r.amountToCapture = some a then s.endCaptured t r else s.endMismatched t r a

/-- An expected reply is applied by the rule for its purpose and kind (R101). -/
def State.applyReply (t : Nat) (r : Tender) (q : Reply) (s : State) : State :=
  match q with
  | .approved a reference => s.takeApproval t r a reference
  | .declined _ => s.replyDeclined t r
  | .cancelled => s.endDeclined t r .customer
  | .withdrawn => s.endDeclined t r .withdrawn
  | .captured a => s.replyCaptured t r a
  | .voided => s.endVoided t r
  | .busy => s.replyBusy t r
  | .stateNone status => s.answerNoMoney t r status
  | .statePending => s.answerPending t r
  | .stateApproved a reference => s.answerApproved t r a reference
  | .stateCaptured a => s.answerCaptured t r a

/-- The line records what a taken reply tells it: the reason of a DECLINED (R90). -/
def PayLine.noteReply (q : Reply) (p : PayLine) : PayLine :=
  match q with
  | .declined reason => { p with lastDecline := some reason }
  | _ => p

/-- The reply is expected: its tender is present, in exchange on this line, and its purpose expects the kind (R101). -/
def State.expected (i : Fin 4) (t : Nat) (q : Reply) (s : State) : Option Tender :=
  match s.tender t with
  | none => none
  | some r => if r.exchange = .inExchange ∧ r.line = i ∧ expects r.purpose q then some r else none

/-- The Tender Unit takes a reply: the hand-off empties, an expected reply cancels the deadline and is applied, and an unexpected one is
dropped and counted by the line (R101, R90). -/
def State.takeReply (i : Fin 4) (t : Nat) (q : Reply) (s : State) : State :=
  let s1 := s.modLine i fun p => { p with handOff := none }
  match s1.expected i t q with
  | none => s1.modLine i PayLine.countUnexpected
  | some r =>
    let r1 := { r with replyDeadline := none }
    ((s1.modLine i (PayLine.noteReply q)).setTender t r1).applyReply t r1 q

/-- The values of a reply fit their fields (section 4.6). -/
def Reply.fits : Reply → Bool
  | .approved a reference | .stateApproved a reference =>
    decide (a ≤ Config.maxMoney) && decide (reference.length = 8) && (readReference reference).isSome
  | .declined reason => decide (reason ≤ 99)
  | .captured a | .stateCaptured a => decide (a ≤ Config.maxMoney)
  | .cancelled | .withdrawn | .voided | .busy | .stateNone _ | .statePending => true

/-- The line could complete a message at this moment with nothing left over, so that a reply command stands for its characters, its
assembly and its taking (log entry 2). -/
def PayLine.clear (p : PayLine) : Bool :=
  decide (p.state = .up) && p.handOff.isNone && decide (p.assembly = .hunting) && p.rxFifo.isEmpty && !p.overrunMark

/-- A reply command can act: the message waits in the line's hand-off, or the command stands for the whole message (log entry 2). -/
def State.hears (i : Fin 4) (t : Nat) (q : Reply) (s : State) : Bool :=
  s.live && (decide ((s.line i).handOff = some (t, q)) || ((s.line i).clear && q.fits))

end Sys2Proof.Machine
end

