-- ==== Sys2Proof/Machine/Tenders.lean ====
section
/-! DEFINITION. The commands of tenders (chapter 5): the replies of a terminal, the reply deadline, and the tender requests. -/

namespace Sys2Proof.Machine

/-! ### The replies (sections 5.3 to 5.6) -/

/-- A reply is taken where the line can hear it (R101; log entry 2). -/
def State.reply (i : Fin 4) (t : Fin 32) (q : Reply) (s : State) : State :=
  s.whenever (s.hears i t.val q) fun u => u.takeReply i t.val q

/-- APPROVED (R101): the order may enter PRINTING, and the arbiters run. -/
def execApproved (line : Fin 4) (tender : Fin 32) (amount : Nat) (reference : List Byte) (s : State) :
    Host.Outcome State Fault Refusal :=
  .next ((s.reply line tender (.approved amount reference)).dispatch.grantAll)

/-- DECLINED (R102, R107). -/
def execDeclined (line : Fin 4) (tender : Fin 32) (reason : Nat) (s : State) : Host.Outcome State Fault Refusal :=
  .next (s.reply line tender (.declined reason))

/-- CANCELLED (R102). -/
def execCancelled (line : Fin 4) (tender : Fin 32) (s : State) : Host.Outcome State Fault Refusal :=
  .next (s.reply line tender .cancelled)

/-- WITHDRAWN (R105). -/
def execWithdrawn (line : Fin 4) (tender : Fin 32) (s : State) : Host.Outcome State Fault Refusal :=
  .next (s.reply line tender .withdrawn)

/-- CAPTURED (R107). -/
def execCaptured (line : Fin 4) (tender : Fin 32) (amount : Nat) (s : State) : Host.Outcome State Fault Refusal :=
  .next (s.reply line tender (.captured amount))

/-- VOIDED (R107). -/
def execVoided (line : Fin 4) (tender : Fin 32) (s : State) : Host.Outcome State Fault Refusal :=
  .next (s.reply line tender .voided)

/-- BUSY (R103). -/
def execBusy (line : Fin 4) (tender : Fin 32) (s : State) : Host.Outcome State Fault Refusal :=
  .next (s.reply line tender .busy)

/-- STATE_NONE_DECLINED_VOIDED (R108). -/
def execStateNoneDeclinedVoided (line : Fin 4) (tender : Fin 32) (status : NoMoney) (s : State) :
    Host.Outcome State Fault Refusal :=
  .next (s.reply line tender (.stateNone status))

/-- STATE_PENDING (R109). -/
def execStatePending (line : Fin 4) (tender : Fin 32) (s : State) : Host.Outcome State Fault Refusal :=
  .next (s.reply line tender .statePending)

/-- STATE_APPROVED (R110): taken as an approval, the order may enter PRINTING, and the arbiters run. -/
def execStateApproved (line : Fin 4) (tender : Fin 32) (amount : Nat) (reference : List Byte) (s : State) :
    Host.Outcome State Fault Refusal :=
  .next ((s.reply line tender (.stateApproved amount reference)).dispatch.grantAll)

/-- STATE_CAPTURED (R111). -/
def execStateCaptured (line : Fin 4) (tender : Fin 32) (amount : Nat) (s : State) : Host.Outcome State Fault Refusal :=
  .next (s.reply line tender (.stateCaptured amount))

/-! ### The reply deadline (R100) -/

/-- The awaited reply is overdue (R100). -/
def State.replyOverdue (t : Nat) (r : Tender) (s : State) : State :=
  (s.setTender t { r with replyDeadline := none }).carry (.unanswered t)

/-- REPLY_DEADLINE_EXPIRY (R100). -/
def execReplyDeadlineExpiry (tender : Fin 32) (s : State) : Host.Outcome State Fault Refusal :=
  .next (match s.tender tender.val with
    | some r =>
      s.whenever (s.live && r.replyDeadline.isSome && decide (r.exchange = .inExchange)) fun t => t.replyOverdue tender.val r
    | none => s)

/-! ### The tender requests (R114 to R116) -/

/-- A request that names a tender: BAD_ARGUMENT above 31, NO_SUCH_RECORD where it is not present. -/
def State.withTender (tender : Byte) (work : Nat → Tender → State → State) (s : State) : State :=
  let t := tender.toNat
  if Config.tenderEntries ≤ t then s.refuse .badArgument
  else
    match s.tender t with
    | none => s.refuse .noSuchRecord
    | some r => work t r s

/-- ENQUIRE TENDER, on a tender that is present (R114). -/
def State.enquireTender (t : Nat) (r : Tender) (s : State) : State :=
  if r.unresolved = false ∨ r.exchange ≠ .none then s.refuse .wrongState
  else ((s.takeUp t).carry (.next r.line)).respond .ok []

/-- ENQUIRE_TENDER (R114). -/
def execEnquireTender (tender : Byte) (s : State) : Host.Outcome State Fault Refusal :=
  .next (s.request (.enquireTender tender) (State.withTender tender State.enquireTender))

/-- WRITE OFF ORDER, on an order that is present (R115). -/
def State.writeOffOrder (n : Nat) (o : Order) (s : State) : State :=
  if o.state ≠ .locked ∧ o.state ≠ .settling then s.refuse .wrongState
  else
    match o.tender.bind fun t => (s.tender t).map fun r => (t, r) with
    | none => s.refuse .wrongState
    | some (t, r) =>
      if r.unresolved = false ∨ r.exchange ≠ .none then s.refuse .wrongState
      else ((s.setTender t { r with money := .writtenOff, unresolved := false }).reportWrittenOff n).respond .ok []

/-- WRITE_OFF_ORDER (R115). -/
def execWriteOffOrder (order : Byte) (s : State) : Host.Outcome State Fault Refusal :=
  .next (s.request (.writeOffOrder order) (State.withOrder order State.writeOffOrder))

/-- The payload of READ TENDER (R116). -/
def Tender.bytes (t : Nat) (r : Tender) : List Byte :=
  byte1 t ++ byte1 r.order ++ byte1 r.line.val ++ byte4 r.receiptCode ++ byte1 r.money.code ++ byte1 r.exchange.code ++
    byteOpt (fun (p : Phase) => byte1 p.code) r.phase ++ byte1 r.purpose.code ++
    byteOpt (fun (k : OutKind) => byte1 k.code) r.pendingPurpose ++ byte4 r.amountRequested ++ byte4 r.amountApproved ++
    byteOpt byte4 r.amountToCapture ++ byteOpt byte4 r.reportedAmount ++ byteOpt id r.reference ++ byte1 r.busyCount ++
    byte1 r.enquiryCount ++ byte1 r.pendingAnswers ++ byteFlag r.unresolved ++ byteFlag r.shortApproval ++
    byteFlag r.withdrawRequested ++ byteFlag r.saleSent ++ byteFlag r.messageBegun ++
    byteOpt (fun ms => byte2 (toSeconds ms)) r.replyDeadline

/-- READ_TENDER (R116). -/
def execReadTender (tender : Byte) (s : State) : Host.Outcome State Fault Refusal :=
  .next (s.request (.readTender tender) (State.withTender tender fun t r u => u.respond .ok (r.bytes t)))

end Sys2Proof.Machine
end

