-- ==== Sys2Proof/Machine/Thermal.lean ====
section
/-! DEFINITION. The commands of the Thermal Watch and the management bus (chapter 8). -/

namespace Sys2Proof.Machine

/-! ### Polls (R162, R163) -/

/-- POLL_TIMER_EXPIRY (R162). -/
def execPollTimerExpiry (s : State) : Host.Outcome State Fault Refusal :=
  .next (s.whenever (s.running && s.thermal.pollTimer.isSome && decide (s.thermal.state = .running)) fun t =>
    { t with thermal := { t.thermal with pollTimer := none } }.makePoll)

/-- A poll that yields no reading ends: the timer starts, unless a poll claim already waits (R163; log entry 16). -/
def State.discardPoll (s : State) : State := if s.bus.claims.any Claim.isPoll then s else s.startPollTimer

/-- A poll transfer ends with NO_ACK: BUS_ERROR is set and the poller stops (R162). That a poll claim which waits behind it is not withdrawn,
and so is served in STOPPED, is the model's choice: the rule withdraws one at STUCK alone (log entry 16). -/
def State.pollUnanswered (i : Fin 4) (s : State) : State :=
  let s1 := s.setCondition .busError
  { s1 with thermal := { s1.thermal with state := .stopped, stopCause := some (.noAck i), pollTimer := none } }

/-- A poll transfer has ended. A reading of a sensor that is not present yields none either: its sensor left the mask while the claim waited
(R162, R163; log entry 16). STUCK stops a void poll's poller like any other: R163 excepts NO_ACK alone. -/
def State.pollEnds (i : Fin 4) (void : Bool) (result : BusResult) (whole : Byte) (s : State) : State :=
  match result with
  | .done => if void || !s.present i then s.discardPoll else (s.takeReading i (clampReading whole.toInt)).startPollTimer
  | .noAck =>
    let s1 := s.setBusFault (.noAck (sensorAddress i))
    if void then s1.discardPoll else s1.pollUnanswered i
  | .stuck => s.pollStuck

/-- POLL_TRANSFER_END (R162): the second byte carries fractional degrees and is discarded (R161). -/
def execPollTransferEnd (result : BusResult) (whole _fraction : Byte) (s : State) : Host.Outcome State Fault Refusal :=
  .next (match s.bus.current with
    | some (.poll i void) => (s.endTransfer.pollEnds i void result whole).serveBus.grantAll
    | _ => s)

/-- The age of a fresh present sensor passes the stale limit (R163). -/
def State.passStaleLimit (i : Fin 4) (s : State) : State :=
  (s.modSensor i fun x => { x with age := some (s.params.staleLimit + 1) }).evaluateHolds

/-- STALE_LIMIT_PASSED (R163). -/
def execStaleLimitPassed (sensor : Fin 4) (s : State) : Host.Outcome State Fault Refusal :=
  .next (s.whenever (s.running && s.present sensor && !s.stale sensor) fun t => (t.passStaleLimit sensor).grantAll)

/-! ### Host requests (R160, R164, R169 to R171) -/

/-- A sensor as READ SENSORS sends it (R169). -/
def State.sensorBytes (i : Fin 4) (s : State) : List Byte :=
  byteFlag (s.present i) ++ byteOpt byteInt (s.sensor i).reading ++ byteOpt byte2 (s.sensor i).age ++ byteFlag (s.stale i) ++
    byteFlag (s.sensor i).latch

/-- The payload of READ SENSORS (R169). -/
def State.sensorsBytes (s : State) : List Byte :=
  s.sensorBytes 0 ++ s.sensorBytes 1 ++ s.sensorBytes 2 ++ s.sensorBytes 3 ++ byte1 s.thermal.state.code ++
    byteOpt StopCause.bytes s.thermal.stopCause ++ byte1 s.thermal.cursor.val ++ byteOpt BusFault.bytes s.bus.lastFault ++
    byteFlag s.bus.current.isSome ++ byte1 s.bus.claims.length

/-- READ_SENSORS (R169). -/
def execReadSensors (s : State) : Host.Outcome State Fault Refusal :=
  .next (s.request .readSensors fun t => t.respond .ok t.sensorsBytes)

/-- CLEAR BUS ERROR (R164). -/
def State.clearBusError (s : State) : State :=
  if s.thermal.state = .stopped then
    if s.params.presentMask = 0 then { s with thermal := { s.thermal with state := .idle, stopCause := none } }
    else s.startPolling
  else s

/-- CLEAR_BUS_ERROR (R164). -/
def execClearBusError (s : State) : Host.Outcome State Fault Refusal :=
  .next (s.request .clearBusError fun t => t.clearBusError.respond .ok [])

/-- RECOVER_BUS (R160): a host claim; the answer waits for its end. -/
def execRecoverBus (s : State) : Host.Outcome State Fault Refusal :=
  .next (s.request .recoverBus (State.claimBus .recover))

/-- The bus recovery has ended: the request is answered by the level of SDA (R160). -/
def State.recoveryEnds (sdaHigh : Bool) (s : State) : State :=
  if sdaHigh then s.respond .ok [] else s.busStuck.refuse .deviceNoAnswer

/-- RECOVER_BUS_END (R160). -/
def execRecoverBusEnd (sdaHigh : Bool) (s : State) : Host.Outcome State Fault Refusal :=
  .next (match s.bus.current with
    | some .recover => (s.endTransfer.recoveryEnds sdaHigh).serveBus
    | _ => s)

/-- SETTINGS READ is checked, and makes a host claim (R170). -/
def State.settingsRead (address count : Word16) (s : State) : State :=
  let a := address.toNat
  let n := count.toNat
  if 0x1FF < a ∨ n = 0 ∨ 256 < n ∨ 512 < a + n then s.refuse .badArgument else s.claimBus (.settingsRead a n)

/-- SETTINGS_READ (R170). -/
def execSettingsRead (address count : Word16) (s : State) : Host.Outcome State Fault Refusal :=
  .next (s.request (.settingsRead address count) (State.settingsRead address count))

/-- The end of a host transfer to the EEPROM: the payload where it ended DONE, and otherwise the bus fault and DEVICE_NO_ANSWER (R170,
R171). -/
def State.hostTransferEnds (result : BusResult) (payload : List Byte) (s : State) : State :=
  if result = .done then s.respond .ok payload else (s.busFailure result).refuse .deviceNoAnswer

/-- SETTINGS_READ_END (R170): a transfer that ends DONE has read the count asked for. -/
def execSettingsReadEnd (result : BusResult) (data : List Byte) (s : State) : Host.Outcome State Fault Refusal :=
  .next (match s.bus.current with
    | some (.settingsRead _ count) =>
      s.whenever (decide (result ≠ .done) || data.length == count) fun t =>
        (t.endTransfer.hostTransferEnds result data).serveBus
    | _ => s)

/-- SETTINGS WRITE is checked, and makes a host claim (R171). -/
def State.settingsWrite (address : Word16) (data : List Byte) (s : State) : State :=
  let a := address.toNat
  if 0x1FF < a ∨ data.length = 0 ∨ 16 < data.length then s.refuse .badArgument
  else if 16 < a % 16 + data.length then s.refuse .limit
  else s.claimBus (.settingsWrite a data)

/-- SETTINGS_WRITE (R171). -/
def execSettingsWrite (address : Word16) (data : List Byte) (s : State) : Host.Outcome State Fault Refusal :=
  .next (s.request (.settingsWrite address data) (State.settingsWrite address data))

/-- SETTINGS_WRITE_END (R171). -/
def execSettingsWriteEnd (result : BusResult) (s : State) : Host.Outcome State Fault Refusal :=
  .next (match s.bus.current with
    | some (.settingsWrite _ _) => (s.endTransfer.hostTransferEnds result []).serveBus
    | _ => s)

/-- ACK_POLL_WINDOW_EXPIRY (R171): the window closes, and no further attempt is begun. -/
def execAckPollWindowExpiry (s : State) : Host.Outcome State Fault Refusal :=
  .next { s with bus := { s.bus with ackWindow := none } }

end Sys2Proof.Machine
end

