-- ==== Sys2Proof/Machine/Dispatch.lean ====
section
/-! DEFINITION. exec: one arm for each command, each a direct call of its meaning. -/

namespace Sys2Proof.Machine

/-- The effect of a command on everything but the queue. -/
def exec (i : Instr) (s : State) : Host.Outcome State Fault Refusal :=
  match i with
  | .powerOn => Sys2Proof.Machine.execPowerOn s
  | .storeInitComplete => Sys2Proof.Machine.execStoreInitComplete s
  | .pinReset => Sys2Proof.Machine.execPinReset s
  | .pinResetRelease => Sys2Proof.Machine.execPinResetRelease s
  | .requestFrameStart => Sys2Proof.Machine.execRequestFrameStart s
  | .requestFrame code length payload crc => Sys2Proof.Machine.execRequestFrame code length payload crc s
  | .overrunByte b => Sys2Proof.Machine.execOverrunByte b s
  | .csNRise => Sys2Proof.Machine.execCsNRise s
  | .csNFall => Sys2Proof.Machine.execCsNFall s
  | .fillerByte b => Sys2Proof.Machine.execFillerByte b s
  | .identifyPart => Sys2Proof.Machine.execIdentifyPart s
  | .readConditions clearMask => Sys2Proof.Machine.execReadConditions clearMask s
  | .takeChanges => Sys2Proof.Machine.execTakeChanges s
  | .setParameter parameter value => Sys2Proof.Machine.execSetParameter parameter value s
  | .readParameter parameter => Sys2Proof.Machine.execReadParameter parameter s
  | .restart => Sys2Proof.Machine.execRestart s
  | .createFrame byteLength => Sys2Proof.Machine.execCreateFrame byteLength s
  | .writeFrameData frame offset data => Sys2Proof.Machine.execWriteFrameData frame offset data s
  | .hostWriteComplete => Sys2Proof.Machine.execHostWriteComplete s
  | .sealFrame frame => Sys2Proof.Machine.execSealFrame frame s
  | .sealWriteComplete => Sys2Proof.Machine.execSealWriteComplete s
  | .readFrameData frame offset count => Sys2Proof.Machine.execReadFrameData frame offset count s
  | .hostReadComplete first next => Sys2Proof.Machine.execHostReadComplete first next s
  | .releaseFrame frame => Sys2Proof.Machine.execReleaseFrame frame s
  | .readFrame frame => Sys2Proof.Machine.execReadFrame frame s
  | .readStore => Sys2Proof.Machine.execReadStore s
  | .scrubPage page => Sys2Proof.Machine.execScrubPage page s
  | .resumeScrub => Sys2Proof.Machine.execResumeScrub s
  | .scrubTimerExpiry => Sys2Proof.Machine.execScrubTimerExpiry s
  | .scrubPortionComplete errors => Sys2Proof.Machine.execScrubPortionComplete errors s
  | .migrationBurstComplete errors => Sys2Proof.Machine.execMigrationBurstComplete errors s
  | .frameDamageNotice frame => Sys2Proof.Machine.execFrameDamageNotice frame s
  | .detectActive slot => Sys2Proof.Machine.execDetectActive slot s
  | .detectReleaseSettling slot => Sys2Proof.Machine.execDetectReleaseSettling slot s
  | .debounceExpiry slot => Sys2Proof.Machine.execDebounceExpiry slot s
  | .cardRemoval slot => Sys2Proof.Machine.execCardRemoval slot s
  | .resetSlot slot => Sys2Proof.Machine.execResetSlot slot s
  | .readSlot slot => Sys2Proof.Machine.execReadSlot slot s
  | .importFrame slot session startBlock byteLength => Sys2Proof.Machine.execImportFrame slot session startBlock byteLength s
  | .cancelImport frame => Sys2Proof.Machine.execCancelImport frame s
  | .linkGrant link => Sys2Proof.Machine.execLinkGrant link s
  | .responseToken link token => Sys2Proof.Machine.execResponseToken link token s
  | .responseWaitExpiry link => Sys2Proof.Machine.execResponseWaitExpiry link s
  | .blockPacket link start data crc => Sys2Proof.Machine.execBlockPacket link start data crc s
  | .blockWaitExpiry link => Sys2Proof.Machine.execBlockWaitExpiry link s
  | .blockWriteComplete link => Sys2Proof.Machine.execBlockWriteComplete link s
  | .openOrder station priority => Sys2Proof.Machine.execOpenOrder station priority s
  | .addLine order frame product quantity fit => Sys2Proof.Machine.execAddLine order frame product quantity fit s
  | .changeLine order line frame product quantity fit => Sys2Proof.Machine.execChangeLine order line frame product quantity fit s
  | .removeLine order line => Sys2Proof.Machine.execRemoveLine order line s
  | .lockOrder order => Sys2Proof.Machine.execLockOrder order s
  | .cancelOrder order => Sys2Proof.Machine.execCancelOrder order s
  | .setPriority order priority => Sys2Proof.Machine.execSetPriority order priority s
  | .readOrder order => Sys2Proof.Machine.execReadOrder order s
  | .findOrder code => Sys2Proof.Machine.execFindOrder code s
  | .retireOrder order => Sys2Proof.Machine.execRetireOrder order s
  | .setPrice product enabled media price => Sys2Proof.Machine.execSetPrice product enabled media price s
  | .readPrices => Sys2Proof.Machine.execReadPrices s
  | .idleDeadlineExpiry order => Sys2Proof.Machine.execIdleDeadlineExpiry order s
  | .setLine line rate dataBits parity stopBits enable => Sys2Proof.Machine.execSetLine line rate dataBits parity stopBits enable s
  | .readLine line clear => Sys2Proof.Machine.execReadLine line clear s
  | .dsrChange line active => Sys2Proof.Machine.execDsrChange line active s
  | .dsrFilterExpiry line => Sys2Proof.Machine.execDsrFilterExpiry line s
  | .breakDetected line => Sys2Proof.Machine.execBreakDetected line s
  | .breakEnd line => Sys2Proof.Machine.execBreakEnd line s
  | .rxCharacter line value parityBit stopBit => Sys2Proof.Machine.execRxCharacter line value parityBit stopBit s
  | .assembleCharacter line => Sys2Proof.Machine.execAssembleCharacter line s
  | .ctsChange line active => Sys2Proof.Machine.execCtsChange line active s
  | .txCharacterEnd line => Sys2Proof.Machine.execTxCharacterEnd line s
  | .ctsWaitExpiry line => Sys2Proof.Machine.execCtsWaitExpiry line s
  | .replyDeadlineExpiry tender => Sys2Proof.Machine.execReplyDeadlineExpiry tender s
  | .approved line tender amount reference => Sys2Proof.Machine.execApproved line tender amount reference s
  | .declined line tender reason => Sys2Proof.Machine.execDeclined line tender reason s
  | .cancelled line tender => Sys2Proof.Machine.execCancelled line tender s
  | .withdrawn line tender => Sys2Proof.Machine.execWithdrawn line tender s
  | .captured line tender amount => Sys2Proof.Machine.execCaptured line tender amount s
  | .voided line tender => Sys2Proof.Machine.execVoided line tender s
  | .busy line tender => Sys2Proof.Machine.execBusy line tender s
  | .stateNoneDeclinedVoided line tender status => Sys2Proof.Machine.execStateNoneDeclinedVoided line tender status s
  | .statePending line tender => Sys2Proof.Machine.execStatePending line tender s
  | .stateApproved line tender amount reference => Sys2Proof.Machine.execStateApproved line tender amount reference s
  | .stateCaptured line tender amount => Sys2Proof.Machine.execStateCaptured line tender amount s
  | .enquireTender tender => Sys2Proof.Machine.execEnquireTender tender s
  | .writeOffOrder order => Sys2Proof.Machine.execWriteOffOrder order s
  | .readTender tender => Sys2Proof.Machine.execReadTender tender s
  | .presenceChange engine active => Sys2Proof.Machine.execPresenceChange engine active s
  | .presenceFilterExpiry engine => Sys2Proof.Machine.execPresenceFilterExpiry engine s
  | .helloTimerExpiry engine => Sys2Proof.Machine.execHelloTimerExpiry engine s
  | .txFrameBoundary engine => Sys2Proof.Machine.execTxFrameBoundary engine s
  | .rxFrameComplete engine kind payload => Sys2Proof.Machine.execRxFrameComplete engine kind payload s
  | .receiveFault engine => Sys2Proof.Machine.execReceiveFault engine s
  | .markPairFound engine => Sys2Proof.Machine.execMarkPairFound engine s
  | .frameTaken engine => Sys2Proof.Machine.execFrameTaken engine s
  | .ready engine media sheets lastTag bufferFree => Sys2Proof.Machine.execReady engine media sheets lastTag bufferFree s
  | .status engine media sheets lastTag bufferFree head => Sys2Proof.Machine.execStatus engine media sheets lastTag bufferFree head s
  | .sheetDone engine tag => Sys2Proof.Machine.execSheetDone engine tag s
  | .sheetFault engine tag cause => Sys2Proof.Machine.execSheetFault engine tag cause s
  | .silenceTimerExpiry engine => Sys2Proof.Machine.execSilenceTimerExpiry engine s
  | .relinkTimerExpiry engine => Sys2Proof.Machine.execRelinkTimerExpiry engine s
  | .setEngine engine enabled mask => Sys2Proof.Machine.execSetEngine engine enabled mask s
  | .readEngine engine clear => Sys2Proof.Machine.execReadEngine engine clear s
  | .holdEngine engine => Sys2Proof.Machine.execHoldEngine engine s
  | .releaseEngine engine => Sys2Proof.Machine.execReleaseEngine engine s
  | .rasterBurstComplete channel errors => Sys2Proof.Machine.execRasterBurstComplete channel errors s
  | .pollTimerExpiry => Sys2Proof.Machine.execPollTimerExpiry s
  | .pollTransferEnd result whole fraction => Sys2Proof.Machine.execPollTransferEnd result whole fraction s
  | .staleLimitPassed sensor => Sys2Proof.Machine.execStaleLimitPassed sensor s
  | .readSensors => Sys2Proof.Machine.execReadSensors s
  | .clearBusError => Sys2Proof.Machine.execClearBusError s
  | .recoverBus => Sys2Proof.Machine.execRecoverBus s
  | .recoverBusEnd sdaHigh => Sys2Proof.Machine.execRecoverBusEnd sdaHigh s
  | .settingsRead address count => Sys2Proof.Machine.execSettingsRead address count s
  | .settingsReadEnd result data => Sys2Proof.Machine.execSettingsReadEnd result data s
  | .settingsWrite address data => Sys2Proof.Machine.execSettingsWrite address data s
  | .settingsWriteEnd result => Sys2Proof.Machine.execSettingsWriteEnd result s
  | .ackPollWindowExpiry => Sys2Proof.Machine.execAckPollWindowExpiry s
  | .optionReadEnd result option => Sys2Proof.Machine.execOptionReadEnd result option s
  | .imageReadEnd result data => Sys2Proof.Machine.execImageReadEnd result data s

end Sys2Proof.Machine
end

