-- ==== Sys2Proof/Machine/Tick.lean ====
section
/-! DEFINITION. One millisecond (log entry 4): every timer that runs comes one nearer to its end, and every age grows by one. A timer
that has reached 0 stays there until its expiry command; nothing else changes. -/

namespace Sys2Proof.Machine

/-- A timer one millisecond later. -/
def countDown (t : Option Nat) : Option Nat := t.map fun n => n - 1

/-- A sensor's age one millisecond later: a fresh age stops at the stale limit until STALE_LIMIT_PASSED takes it past, and any age
saturates at 65,535 (R163; log entry 4). -/
def ageAfter (limit age : Nat) : Nat := if age ≤ limit then min limit (age + 1) else min Config.ageLimit (age + 1)

/-- An order one millisecond later (R60). -/
def Order.tick (o : Order) : Order := { o with idleDeadline := countDown o.idleDeadline }

/-- A tender one millisecond later (R100). -/
def Tender.tick (r : Tender) : Tender := { r with replyDeadline := countDown r.replyDeadline }

/-- A slot one millisecond later (R31). -/
def Slot.tick (t : Slot) : Slot := { t with debounce := countDown t.debounce }

/-- A card link one millisecond later (R36, R37). -/
def CardLink.tick (l : CardLink) : CardLink :=
  { l with responseWait := countDown l.responseWait, blockWait := countDown l.blockWait }

/-- A payment line one millisecond later (R80, R86). -/
def PayLine.tick (p : PayLine) : PayLine := { p with dsrFilter := countDown p.dsrFilter, ctsWait := countDown p.ctsWait }

/-- An engine one millisecond later (R123, R124, R126, R128). -/
def Engine.tick (r : Engine) : Engine :=
  { r with
    relinkTimer := countDown r.relinkTimer
    presFilter := countDown r.presFilter
    helloTimer := countDown r.helloTimer
    silenceTimer := countDown r.silenceTimer }

/-- The bus one millisecond later: at the stop of the write of a SETTINGS WRITE its polling window of 10 ms starts (R171). -/
def Bus.tick (b : Bus) : Bus :=
  match b.writeLeft with
  | some (n + 2) => { b with writeLeft := some (n + 1) }
  | some _ => { b with writeLeft := none, ackWindow := some Config.ackWindowMs }
  | none => { b with ackWindow := countDown b.ackWindow }

/-- A sensor one millisecond later (R163). -/
def Sensor.tick (limit : Nat) (x : Sensor) : Sensor := { x with age := x.age.map (ageAfter limit) }

/-- The part one millisecond later; while RESET_N is asserted nothing runs (log entry 19). -/
def State.tick (s : State) : State :=
  if s.part.inReset then s
  else
    { s with
      store := { s.store with scrubTimer := countDown s.store.scrubTimer }
      cards := { slots := s.cards.slots.map Slot.tick, links := s.cards.links.map CardLink.tick }
      book := { s.book with orders := s.book.orders.map fun e => (e.1, e.2.tick) }
      lines := s.lines.map PayLine.tick
      tenders := { s.tenders with tenders := s.tenders.tenders.map fun e => (e.1, e.2.tick) }
      engines := s.engines.map Engine.tick
      thermal := { s.thermal with
        sensors := s.thermal.sensors.map (Sensor.tick s.params.staleLimit)
        pollTimer := countDown s.thermal.pollTimer }
      bus := s.bus.tick }

end Sys2Proof.Machine
end

