-- ==== Sys2Proof/Machine/Step.lean ====
section
/-! DEFINITION. One step: the command at the front of the queue, or one millisecond where none waits. -/

namespace Sys2Proof.Machine

/-- One step of the part. The command at the front of the queue runs on the state with the queue's rest; where no command waits one
millisecond passes (log entry 4). -/
def step (s : State) : Host.Outcome State Fault Refusal :=
  match s.pending with
  | [] => .next s.tick
  | i :: rest => exec i { s with pending := rest }

/-- The state with the command that a word spells put at the front of its queue; unchanged where the word spells none (log entry
22). -/
def State.withFetchWord (s : State) (nbits w : Nat) : State :=
  match decodeTableWord nbits w with
  | some i => { s with pending := i :: s.pending }
  | none => s

end Sys2Proof.Machine
end

