-- ==== Sys2Proof/WellFormed.lean ====
section
/-! DEFINITION. Well-formed commands: the operands that the port of a command can carry. A command that is not well-formed stands for
no event of the part. -/

namespace Sys2Proof

/-- An amount of six digits (section 4.6). -/
def amountFits (a : Nat) : Bool := decide (a ≤ Config.maxMoney)

/-- A reference of eight characters from 0x20 to 0x7E (section 4.6). -/
def referenceFits (r : List Byte) : Bool := r.length == 8 && r.all fun b => decide (0x20 ≤ b.toNat) && decide (b.toNat ≤ 0x7E)

/-- What one read can meet in so many 8-byte groups (R20). -/
def errorsFit (groups : Nat) (e : ReadErrors) : Bool := decide (e.correctable + e.uncorrectable ≤ groups)

/-- Groups of a 4 KiB burst. -/
def burstGroups : Nat := 512

/-- Groups that 512 bytes can touch. -/
def readGroups : Nat := 65

/-- Bytes come back from a transfer exactly where it ended DONE. -/
def bytesFit (r : BusResult) (lengths : List Nat) (data : List Byte) : Bool :=
  if r = .done then lengths.contains data.length else data.isEmpty

/-- A request frame carries as many payload bytes as its length says; of a length above 600 the part takes none (R176). -/
def frameFits (length : Word16) (payload : List Byte) : Bool :=
  if Config.maxPayload < length.toNat then payload.isEmpty else payload.length == length.toNat

/-- The operands of a command fit what carries them. -/
def Instr.wellFormed : Instr → Bool
  | .requestFrame _ length payload _ => frameFits length payload
  | .overrunByte b => b != 0xFF
  | .fillerByte b => b != 0x5D
  | .writeFrameData _ _ data => decide (1 ≤ data.length) && decide (data.length ≤ 512)
  | .settingsWrite _ data => decide (1 ≤ data.length) && decide (data.length ≤ 16)
  | .hostReadComplete first next => errorsFit readGroups first && errorsFit readGroups next
  | .scrubPortionComplete e => errorsFit burstGroups e
  | .migrationBurstComplete e => errorsFit burstGroups e
  | .rasterBurstComplete _ e => errorsFit burstGroups e
  | .responseToken _ token => token.any fun b => b != 0xFF
  | .blockPacket _ start data _ => start != 0xFF && data.length == 512
  | .approved _ _ amount reference => amountFits amount && referenceFits reference
  | .stateApproved _ _ amount reference => amountFits amount && referenceFits reference
  | .declined _ _ reason => decide (reason ≤ 99)
  | .captured _ _ amount => amountFits amount
  | .stateCaptured _ _ amount => amountFits amount
  | .rxFrameComplete _ kind payload => kind != 0xA5 && decide (payload.length ≤ 1024)
  | .settingsReadEnd r data => if r = .done then decide (1 ≤ data.length) && decide (data.length ≤ 256) else data.isEmpty
  | .imageReadEnd r data => bytesFit r [79, 143] data
  | _ => true

end Sys2Proof
end

