-- ==== Sys2Proof/Safety.lean ====
section
/-! DEFINITION. The words in which statements about the part are made: a request that its block takes, the canonical forms that
every step keeps, and the parts of the state that a command leaves alone. -/

namespace Sys2Proof.Machine

/-! ### Requests -/

/-- Request i reaches its block: RESET_N is not asserted, and either the link has handed this request to the block, or CS_N is low, the link
is free, the request is answered in this start-up state, and its payload length suits it (R174 to R176; log entry 1). -/
def Reaches (i : Instr) (s : State) : Prop :=
  s.part.inReset = false ∧
  ((s.link.state = .working ∧ s.link.handed = some i) ∨
    (s.link.selected = true ∧ (s.link.state = .idle ∨ s.link.state = .answered) ∧ (s.part.started = true ∨ i = .identifyPart) ∧ i.lengthSuits = true))

/-- The command clocks this one byte in: 0x5D as the mark of a request frame, or a byte by its value (R175). -/
def Spells (i : Instr) (b : Byte) : Prop :=
  (i = .requestFrameStart ∧ b = 0x5D) ∨ i = .overrunByte b ∨ i = .fillerByte b

/-- The state in which the block works request i: taken where the link had handed it, and otherwise the state after its whole frame,
which shifts out 0xFF last, discards a response held and lets a RESTART that waits take effect. -/
def State.atWork (i : Instr) (s : State) : State :=
  if s.link.state = .working then s.takeHanded i else s.beginFrame.shiftFiller.takeHanded i

/-- The change flags as a request that reaches its block finds them: all set where a RESTART waits and the frame begins now (R185). -/
def State.flagsAtWork (s : State) : List Nat :=
  if s.link.state ≠ .working ∧ s.link.restartDue = true then allFlags else s.link.flags

/-- The link holds a response of this status and payload, none of it shifted out yet. -/
def Answered (status : Status) (payload : List Byte) (t : State) : Prop :=
  t.link.state = .answered ∧ t.link.handed = none ∧ t.link.working = none ∧ t.link.response = some ⟨status, payload⟩ ∧
  t.link.shifted = 0

/-- The request answers and does nothing else: every component but the Order Link is as it was, and of the link only its traffic and a
RESTART that takes effect have changed. -/
def OnlyAnswers (i : Instr) (s : State) (status : Status) (payload : List Byte) : Prop :=
  exec i s = .next ((s.atWork i).respond status payload)

/-- The same, and then the arbiters of the store port and the card links make what grants stand open. -/
def AnswersAndGrants (i : Instr) (s : State) (status : Status) (payload : List Byte) : Prop :=
  exec i s = .next ((s.atWork i).respond status payload).grantAll

/-- The request has been answered: the link holds this response, and of its other parts only change flags and conditions that the work set
differ from those at work. -/
structure Finishes (i : Instr) (status : Status) (payload : List Byte) (s t : State) : Prop where
  answered   : Answered status payload t
  wires      : t.link.selected = s.link.selected ∧ t.link.sdo = (s.atWork i).link.sdo
  flags      : ∀ k, k ∈ s.flagsAtWork → k ∈ t.link.flags
  conditions : ∀ c, s.hasCondition c = true → t.hasCondition c = true

/-- Of the Order Link only change flags and conditions have changed, and none is lost. -/
structure Quiet (s t : State) : Prop where
  traffic    : t.link = { s.link with flags := t.link.flags, conditions := t.link.conditions }
  flags      : ∀ k, k ∈ s.link.flags → k ∈ t.link.flags
  conditions : ∀ c, s.hasCondition c = true → t.hasCondition c = true

/-! ### Canonical forms -/

/-- A table's numbers rise strictly. -/
def Ascending {α : Type} (l : List (Nat × α)) : Prop := l.Pairwise fun x y => x.1 < y.1

/-- The bytes of the store are in their canonical form. -/
def MemorySound (s : State) : Prop := Memory.wf s.store.mem = true

/-- The change flags are a set, listed in scan order without repeats. -/
def FlagsSound (s : State) : Prop := s.link.flags.Pairwise (· < ·)

/-- The record tables list each number once, in ascending order. -/
def TablesSound (s : State) : Prop :=
  Ascending s.store.frames ∧ Ascending s.book.orders ∧ Ascending s.tenders.tenders

/-! ### What the records have in common -/

/-- The lines of an order are numbered from 1 to 255 in rising order, all below the next line number (R57). -/
structure LinesSound (o : Order) : Prop where
  rising : o.lines.Pairwise fun x y => x.number < y.number
  range  : ∀ l ∈ o.lines, 1 ≤ l.number ∧ l.number ≤ 255
  next   : ∀ k, o.nextLine = some k → 1 ≤ k ∧ k ≤ 255 ∧ ∀ l ∈ o.lines, l.number < k

/-- The lines of present orders that cite a frame (R17). -/
def State.citations (n : Nat) (s : State) : Nat := (s.book.orders.map fun e => e.2.lines.countP fun l => l.frame == n).sum

/-- The raster channels that hold a pin of a frame: all that are not IDLE (R15, R153). -/
def State.channelsOn (n : Nat) (s : State) : Nat :=
  (List.finRange 3).countP fun e => decide ((s.engine e).channel.phase ≠ .idle) && (s.engine e).channel.frame == n

/-- The reference count of each frame is the number of lines in present orders that cite it, and its pin count the number of raster
channels that stream from it; an absent frame has neither (R15, R17). -/
structure CountsSound (s : State) : Prop where
  lines      : ∀ n o, s.order n = some o → LinesSound o
  references : ∀ n, ((s.frame n).map fun f => f.references).getD 0 = s.citations n
  pins       : ∀ n, ((s.frame n).map fun f => f.pins).getD 0 = s.channelsOn n
  resting    : ∀ e, (s.engine e).channel.phase = .idle → (s.engine e).channel.sheet = none

/-- A tender stands in the Exchange Queue of its line exactly while it waits for the line, and once; and at most one tender is in exchange
on each line (R97). -/
structure ExchangesSound (s : State) : Prop where
  stands : ∀ i k, k ∈ s.exchangeQueue i ↔ ∃ r, s.tender k = some r ∧ r.line = i ∧ r.exchange = .waitingLine
  once   : ∀ i, (s.exchangeQueue i).Nodup
  sole   : ∀ j k q r, s.tender j = some q → s.tender k = some r → q.line = r.line → q.exchange = .inExchange →
    r.exchange = .inExchange → j = k

/-- The sheets of all engines that belong to a line (R147). -/
def State.sheetsOf (n k : Nat) (s : State) : Nat :=
  ((List.finRange 3).map fun e => (s.engine e).sheets.countP fun h => h.order == n && h.line == k).sum

/-- A pair stands in the Ready List exactly while its order is PRINTING and copies of its line wait, once, and in the order of admission
sequences and line numbers (R139, R140); the in-flight count of each line is the number of sheets that belong to it, and each sheet belongs
to a line of a PRINTING order (R147, R154). -/
structure CopiesSound (s : State) : Prop where
  lines    : ∀ n o, s.order n = some o → LinesSound o
  admitted : ∀ n o, s.order n = some o → o.state = .printing → o.admission ≠ none
  stands   : ∀ n k, (n, k) ∈ s.ready ↔ ∃ o l, s.order n = some o ∧ o.state = .printing ∧ o.line k = some l ∧ 0 < l.waiting
  once     : s.ready.Nodup
  sorted   : s.ready.Pairwise fun x y => ∃ o p a b, s.order x.1 = some o ∧ s.order y.1 = some p ∧ o.admission = some a ∧
    p.admission = some b ∧ (a < b ∨ (a = b ∧ x.2 ≤ y.2))
  flying   : ∀ n o, s.order n = some o → ∀ l ∈ o.lines, l.inFlight = s.sheetsOf n l.number
  sheets   : ∀ e, ∀ h ∈ (s.engine e).sheets, ∃ o l, s.order h.order = some o ∧ o.state = .printing ∧ o.line h.line = some l

/-- How often a page stands in the places of the Page Map (R1). -/
def State.placesOf (p : Page) (s : State) : Nat :=
  s.store.freePool.count p + s.store.spares.count p + s.store.bad.count p + s.store.retiringPages.count p +
  (s.store.frames.map fun e => e.2.extent.count p).sum +
  (match s.store.migration with
    | some m => if m.target = p then 1 else 0
    | none => 0)

/-- The page lies in the extent of this frame, which is READY and not on its way out (R20, R24). -/
def State.holdsPage (n : Nat) (p : Page) (s : State) : Prop :=
  ∃ f, s.frame n = some f ∧ f.state = .ready ∧ f.retiring = false ∧ p ∈ f.extent

/-- From the forming of the pools on every page stands in exactly one place, and before it in none (R1, R28). The Space Wait List holds the
frames in WAITING_SPACE, once each and without pages (R8), and the Migration Queue and the migration in progress name pages of READY frames,
each once (R20, R24). A frame has all its pages or none (R7), and all of them in every state but WAITING_SPACE and DAMAGED and while a host
data request on it is at the store port (R14, R17). -/
structure PagesSound (s : State) : Prop where
  placed  : s.part.started = true → ∀ p, s.placesOf p = 1
  unborn  : s.part.started = false → s.store.frames = [] ∧ ∀ p, s.placesOf p = 0
  waiting : ∀ n, n ∈ s.store.waitList ↔ ∃ f, s.frame n = some f ∧ f.state = .waitingSpace
  empty   : ∀ n f, s.frame n = some f → f.state = .waitingSpace → f.extent = []
  whole   : ∀ n f, s.frame n = some f → 1 ≤ f.byteLength ∧ (f.extent = [] ∨ f.extent.length = pagesFor f.byteLength)
  held    : ∀ n f, s.frame n = some f → f.state = .queued ∨ f.state = .filling ∨ f.state = .open ∨ f.state = .ready → f.extent ≠ []
  access  : ∀ a, s.store.port.busy = some a ∨ a ∈ s.store.port.waiting → ∀ n, a.isHostOn n = true → ∃ f, s.frame n = some f ∧ f.extent ≠ []
  once    : s.store.waitList.Nodup ∧ s.store.migrationQueue.Nodup
  queued  : ∀ p ∈ s.store.migrationQueue, ∃ n, s.holdsPage n p
  moving  : ∀ m, s.store.migration = some m → s.holdsPage m.frame m.page ∧ m.page ∉ s.store.migrationQueue

/-! ### Start-up -/

/-- The thermal holds of every engine are what the sensors give, and its other holds are as they were (R167). -/
def HoldsEvaluated (s t : State) : Prop :=
  ∀ e, (t.engine e).holds = { (s.engine e).holds with thermalHigh := t.wantsHigh e, thermalStale := t.wantsStale e }

/-- Start-up has ended from s to t (R188): STARTED is set, the pools are formed with the spare target in force and STORE_LOW is judged, the
patrol starts, slots with a card enter SETTLING, present engines enter HUNTING, the hold evaluation is made, and polling starts. -/
structure StartUpEnds (s t : State) : Prop where
  part       : t.part = ⟨false, true, true⟩
  quiet      : Quiet s t
  flag       : partFlag ∈ t.link.flags
  conditions : ∀ c, t.hasCondition c = (s.hasCondition c || decide (c = .started) ||
    decide (c = .storeLow ∧ 4096 - s.params.spareTarget < s.params.lowMark))
  freePool   : t.store.freePool = (List.finRange 4096).take (4096 - s.params.spareTarget)
  spares     : t.store.spares = (List.finRange 4096).drop (4096 - s.params.spareTarget)
  noPatrol   : s.params.scrubInterval = 0 → t.store.patrol = .idle ∧ t.store.scrubTimer = s.store.scrubTimer
  patrols    : 0 < s.params.scrubInterval → t.store.patrol = .running ∧ t.store.scrubTimer = some s.params.scrubInterval
  store      : t.store = { s.store with
    freePool := t.store.freePool, spares := t.store.spares, patrol := t.store.patrol, scrubTimer := t.store.scrubTimer }
  slots      : ∀ i, t.slot i = if (s.slot i).detect = true ∧ (s.slot i).state = .empty then
    { s.slot i with state := .settling, debounce := some 50 } else s.slot i
  engines    : ∀ e, (t.engine e).present = (s.engine e).presInput ∧
    (t.engine e).link = if (s.engine e).presInput then .hunting else .absent
  holds      : HoldsEvaluated s t
  noPolls    : s.thermal.state = .stopped ∨ s.params.presentMask = 0 → t.thermal = s.thermal ∧ t.bus = s.bus
  polls      : ∀ i, s.thermal.state ≠ .stopped → s.firstPresent s.thermal.cursor = some i → s.params.presentMask ≠ 0 →
    s.bus.current = none → s.bus.claims = [] →
    t.thermal.state = .running ∧ t.bus.current = some (.poll i false) ∧ t.bus.claims = []
  rest       : t.params = s.params ∧ t.book = s.book ∧ t.lines = s.lines ∧ t.tenders = s.tenders ∧ t.ready = s.ready ∧
    t.loader = s.loader ∧ t.pending = s.pending

/-- The command ends the load in u, and start-up with it where store initialisation has completed (R188). -/
def LoadEnds (i : Instr) (s u : State) : Prop :=
  u.loader.state = .done ∧
  (s.part.initDone = false → exec i s = .next u) ∧
  (s.part.initDone = true → ∃ t, exec i s = .next t ∧ StartUpEnds u t)

/-- The payment lines are as power-on leaves them, but for the levels at their inputs, and no tender is held (R92, R117). -/
structure MoneyAtRest (s : State) : Prop where
  lines   : ∀ i, s.line i = { PayLine.reset with dsrInput := (s.line i).dsrInput, cts := (s.line i).cts }
  tenders : s.tenders = TenderUnit.reset

/-- What holds of the part in start-up: the link has handed over IDENTIFY PART at most (R175), the store port serves no client (R28), no
sheet link is ONLINE (R136), only the loader uses the bus, and not while RESET_N is asserted (R188, R189), and until the load has ended no
line has a mode and no tender is held (R92, R117, R192). -/
structure InStartUp (s : State) : Prop where
  handed : ∀ i, s.link.handed = some i → i = .identifyPart
  port   : s.store.port = Port.reset
  links  : ∀ e, (s.engine e).link ≠ .online
  claims : s.bus.claims = []
  loads  : s.bus.current = none ∨ s.bus.current = some .loadOption ∨ s.bus.current = some .loadImage
  held   : s.part.inReset = true → s.bus.current = none
  atRest : s.part.inReset = true ∨ s.bus.current ≠ none → MoneyAtRest s

/-- Until start-up has ended the part is as start-up has it. -/
def AwaitsLoad (s : State) : Prop := s.part.started = false → InStartUp s

/-! ### Replies -/

/-- The line can take this reply for a tender that is in exchange on it, and no other tender waits for the line. -/
structure Hears (i : Fin 4) (t : Fin 32) (reply : Reply) (r : Tender) (s : State) : Prop where
  taken    : s.hears i t.val reply = true
  held     : s.tender t.val = some r
  exchange : r.exchange = .inExchange
  line     : r.line = i
  alone    : s.exchangeQueue i = []

/-! ### Frames of an engine -/

/-- The command that names this frame of an engine can act: the frame stands at the head of the receive buffer, or nothing is held, so that
the command stands for its arrival and its taking (log entry 2). -/
def Offers (e : Fin 3) (f : RawFrame) (s : State) : Prop :=
  s.part.inReset = false ∧ s.part.started = true ∧ ((s.engine e).rxBuffer = [] ∨ (s.engine e).rxBuffer.head? = some f)

/-- The command names this frame of the engine (log entry 2). -/
def Names (e : Fin 3) (f : RawFrame) (c : Instr) : Prop :=
  (∃ (media : Byte) (sheets lastTag : Word16) (bufferFree : Byte), c = .ready e media sheets lastTag bufferFree ∧
    f = ⟨0x11, media :: (word2 sheets ++ word2 lastTag ++ [bufferFree])⟩) ∨
  (∃ (media : Byte) (sheets lastTag : Word16) (bufferFree head : Byte), c = .status e media sheets lastTag bufferFree head ∧
    f = ⟨0x12, media :: (word2 sheets ++ word2 lastTag ++ [bufferFree, head])⟩) ∨
  (∃ tag, c = .sheetDone e tag ∧ f = ⟨0x13, word2 tag⟩) ∨
  (∃ tag code, c = .sheetFault e tag code ∧ f = ⟨0x14, word2 tag ++ [code]⟩)

/-- The facts of a READY or a STATUS stand in the Engine record (R130). -/
structure Recorded (media : Byte) (sheets lastTag : Word16) (bufferFree : Byte) (r : Engine) : Prop where
  ofMedia  : r.media = media.toNat
  ofSheets : r.sheetsRemaining = sheets.toNat
  ofTag    : r.lastCompleted = some lastTag
  ofBuffer : r.bufferFree = bufferFree.toNat
  ofHold   : r.holds.mediaOut = decide (sheets = 0)

/-- The sheets of an engine but one of each of these tags, the oldest of its tag (log entry 52). -/
def Engine.without (tags : List Word16) (r : Engine) : List Sheet := tags.foldl (fun l tag => l.eraseP fun g => g.tag == tag) r.sheets

/-- The sheets of an engine but the STREAMING one. -/
def Engine.others (r : Engine) : List Sheet :=
  match r.streaming with
  | none => r.sheets
  | some h => r.without [h.tag]

/-- One copy of a PRINTING order is in flight on an engine whose only sheet has been sent, while no engine may take a new sheet. -/
structure InFlight (e : Fin 3) (h : Sheet) (o : Order) (l : OrderLine) (s : State) : Prop where
  sheet    : (s.engine e).sheets = [h]
  sent     : h.state ≠ .streaming
  order    : s.order h.order = some o
  line     : o.line h.line = some l
  printing : o.state = .printing
  flying   : 0 < l.inFlight
  disabled : ∀ k, (s.engine k).enabled = false

/-- A pair of the Ready List, with its order, is a candidate of the engine (R143). -/
def IsCandidate (e : Fin 3) (q : Nat × Nat) (o : Order) (s : State) : Prop :=
  q ∈ s.ready ∧ s.order q.1 = some o ∧ ∃ l, o.line q.2 = some l ∧ s.book.prices[l.product].media = (s.engine e).media ∧
    (s.engine e).stationMask.getLsbD o.station = true ∧ s.frameReady l.frame = true

/-- The arbiter of the engine chooses this candidate: by its level (R144), by the place of its station after that level's pointer, and by
its place in the Ready List (R145). -/
structure Chosen (e : Fin 3) (q : Nat × Nat) (o : Order) (s : State) : Prop where
  candidate : IsCandidate e q o s
  express   : o.priority = .express → (∃ x p, IsCandidate e x p s ∧ p.priority = .standard) → (s.engine e).expressRun < 4
  standard  : o.priority = .standard → (∃ x p, IsCandidate e x p s ∧ p.priority = .express) → 4 ≤ (s.engine e).expressRun
  station   : ∀ x p (pointer : Fin 4), pointer =
      (if o.priority = .express then (s.engine e).expressPointer else (s.engine e).standardPointer) →
    IsCandidate e x p s → p.priority = o.priority → (o.station - pointer - 1).val ≤ (p.station - pointer - 1).val
  first     : ∃ before after, s.ready = before ++ q :: after ∧
    ∀ x ∈ before, ∀ p, IsCandidate e x p s → p.priority = o.priority → p.station ≠ o.station

/-! ### Frames: what a command leaves alone -/

/-- Everything but the Order Link, the Order Book, the payment lines, the tenders and the Ready List is as it was. -/
def OnlyMoney (s t : State) : Prop :=
  t = { s with link := t.link, book := t.book, lines := t.lines, tenders := t.tenders, ready := t.ready }


/-- Everything but the Order Link is as it was. -/
def OnlyLink (s t : State) : Prop := t = { s with link := t.link }

/-- Everything but the Order Link and the Image Store is as it was. -/
def OnlyStore (s t : State) : Prop := t = { s with link := t.link, store := t.store }

/-- Everything but the Order Link and the Card Intake Unit is as it was. -/
def OnlyCards (s t : State) : Prop := t = { s with link := t.link, cards := t.cards }

/-- Everything but the Order Link, the Image Store and the Card Intake Unit is as it was. -/
def OnlyImages (s t : State) : Prop := t = { s with link := t.link, store := t.store, cards := t.cards }

/-- The bytes of the store read as before. -/
def SameBytes (s t : State) : Prop := ∀ a, readByte t.store.mem a = readByte s.store.mem a

/-- The bytes outside a range read as before. -/
def SameBytesOutside (start length : Nat) (s t : State) : Prop :=
  ∀ a, (a < start ∨ start + length ≤ a) → readByte t.store.mem a = readByte s.store.mem a

/-- The start-up state, the parameters, the prices, the loader, the commands that wait, the bytes of the store and the Order Link's traffic
are as they were, and no change flag or condition is lost. -/
structure Steady (s t : State) : Prop where
  part       : t.part = s.part
  params     : t.params = s.params
  loader     : t.loader = s.loader
  pending    : t.pending = s.pending
  prices     : t.book.prices = s.book.prices
  mem        : t.store.mem = s.store.mem
  traffic    : t.link = { s.link with flags := t.link.flags, conditions := t.link.conditions }
  flags      : ∀ k, k ∈ s.link.flags → k ∈ t.link.flags
  conditions : ∀ c, s.hasCondition c = true → t.hasCondition c = true

/-- The part of an Engine record that no grant, no outcome and no raster channel changes. -/
def Engine.setup (r : Engine) : Engine :=
  { r with
    credit := 0
    nextTag := 0
    sheets := []
    protocolErrors := 0
    expressRun := 0
    expressPointer := 0
    standardPointer := 0
    control := []
    sheetPath := none
    tx := .still
    channel := Channel.reset }

/-- The rank of an access at the store port, the best first (R27). -/
def Access.rank : Access → Nat
  | .raster _ _ _ _ => 0
  | .block _ _ _ _ _ => 1
  | .hostWrite _ _ | .hostSeal _ | .hostRead _ _ _ => 2
  | .migration _ _ _ => 3
  | .scrub _ => 4

/-! ### Card links -/

/-- The judgement of a response token against the command that the link has sent, where one is in progress (R36). -/
def State.judged (k : Fin 4) (token : List Byte) (s : State) : Option Judgement :=
  match (s.cardLink k).work with
  | .identify odd _ => some (judgeToken (CardCommand.kindByte odd .identify) true token)
  | w => w.kindByte.map fun b => judgeToken b false token

/-- The command is a response token that opens on a link awaiting one, judged so (R36). -/
def Responds (k : Fin 4) (i : Instr) (j : Judgement) (s : State) : Prop :=
  (s.cardLink k).responseWait ≠ none ∧ ∃ token, i = .responseToken k token ∧ opens token = true ∧ s.judged k token = some j

/-- The command fails the exchange in progress on the link with this error: no response in time, a token that fails it, or the eleventh
BUSY (R36). -/
def ExchangeFails (k : Fin 4) (i : Instr) (e : LinkError) (s : State) : Prop :=
  ((s.cardLink k).responseWait ≠ none ∧ i = .responseWaitExpiry k ∧ e = .responseTimeout) ∨ Responds k i (.fails e) s ∨
  (Responds k i .busy s ∧ 10 ≤ ((s.cardLink k).work.oneBusy).1 ∧ e = .busyLimit)

/-- The other links are as they were, but for the mark of a slot that gained work. -/
def OtherLinks (k : Fin 4) (s t : State) : Prop :=
  ∀ j, j ≠ k → t.cardLink j = { s.cardLink j with gained := (t.cardLink j).gained }

/-- Link k has sent HALT for a position, and nothing else of any link has changed (R38). -/
def HaltSent (k : Fin 4) (odd : Bool) (s t : State) : Prop :=
  t.cardLink k = { s.cardLink k with
    work := .halt odd 0
    token := [if odd then 0x84 else 0x04, 0, 0, 0, 0, 0, 0, if odd then 0x84 else 0x04]
    responseWait := some 100
    blockWait := none } ∧
  ∀ j, j ≠ k → t.cardLink j = s.cardLink j

/-- Link k has been granted to a position whose run it starts with this READ RUN (R39, R42). -/
def RunSent (k : Fin 4) (odd : Bool) (block count : Nat) (s t : State) : Prop :=
  (∃ body : List Byte,
    body = [if odd then 0x83 else 0x03, BitVec.ofNat 8 (block / 16777216), BitVec.ofNat 8 (block / 65536), BitVec.ofNat 8 (block / 256),
      BitVec.ofNat 8 block, BitVec.ofNat 8 (count / 256), BitVec.ofNat 8 count] ∧
    t.cardLink k = { s.cardLink k with
      pointerOdd := odd
      gained := none
      work := .readRun odd 0 count
      token := body ++ [xorBytes body]
      responseWait := some 100
      blockWait := none }) ∧
  ∀ j, j ≠ k → t.cardLink j = s.cardLink j

/-- A run that has failed or been cancelled is over, with this last error, for a slot whose FILLING head is frame n: the link falls free; a
cancel that is recorded damages the frame, an attempt below the third asks for the link again, and the third damages the frame and counts
a failed import, of which the third makes the slot FAULTED (R38, R43, R44, R47). -/
structure RunOver (k : Fin 4) (odd : Bool) (n : Nat) (rest : List Nat) (p : Progress) (last : Option LinkError) (s t : State) : Prop where
  images : OnlyImages s t
  quiet  : Quiet s t
  mem    : t.store.mem = s.store.mem
  link   : t.cardLink k = { s.cardLink k with work := .free, responseWait := none, blockWait := none }
  others : OtherLinks k s t
  error  : (t.slot (slotOf k odd)).lastError = last
  retry  : p.cancel = false → p.attempts < 2 → t.store = s.store ∧
    t.slot (slotOf k odd) = { s.slot (slotOf k odd) with
      lastError := last, progress := some { p with attempts := p.attempts + 1, phase := .waitingLink } } ∧
    ∀ j, j ≠ slotOf k odd → t.slot j = s.slot j
  cancel : p.cancel = true → n ∉ (t.slot (slotOf k odd)).importQueue ∧ (t.slot (slotOf k odd)).state = (s.slot (slotOf k odd)).state ∧
    (t.frame n = none ∨ ∃ q, t.frame n = some q ∧ q.state = .damaged ∧ q.cause = some .cancelled)
  failed : p.cancel = false → 2 ≤ p.attempts →
    n ∉ (t.slot (slotOf k odd)).importQueue ∧
    (t.slot (slotOf k odd)).failedImports = (s.slot (slotOf k odd)).failedImports + 1 ∧
    (t.frame n = none ∨ ∃ q, t.frame n = some q ∧ q.state = .damaged ∧ q.cause = some .cardError) ∧
    ((s.slot (slotOf k odd)).failedImports < 2 → (t.slot (slotOf k odd)).state = (s.slot (slotOf k odd)).state) ∧
    (2 ≤ (s.slot (slotOf k odd)).failedImports →
      (t.slot (slotOf k odd)).state = .faulted ∧ (t.slot (slotOf k odd)).power = false ∧
      (t.slot (slotOf k odd)).capacity = (s.slot (slotOf k odd)).capacity ∧
      ((∀ m ∈ rest, ∃ g b w, s.frame m = some g ∧ g.origin = .card (slotOf k odd) b w ∧ g.state ≠ .damaged) →
        (t.slot (slotOf k odd)).importQueue = []))

/-- A cancel is recorded against the import of slot i with this progress, not recorded before, in the phase RUNNING or HALTING: a run whose
clock stands still for want of a buffer sends HALT, and otherwise the exchange or the packet in progress goes on (R47). -/
structure CancelRecorded (i : Fin 8) (p : Progress) (s t : State) : Prop where
  slots  : ∀ j, j ≠ i → t.slot j = s.slot j
  goesOn : p.phase = .halting ∨ (s.cardLink (linkOf i)).blockWait ≠ none ∨ (∀ odd left, (s.cardLink (linkOf i)).work ≠ .blocks odd left) →
    t.slot i = { s.slot i with progress := some { p with cancel := true } } ∧ t.cards.links = s.cards.links
  stands : ∀ odd left, p.phase = .running → (s.cardLink (linkOf i)).work = .blocks odd left → (s.cardLink (linkOf i)).blockWait = none →
    t.slot i = { s.slot i with progress := some { p with cancel := true, phase := .halting } } ∧ HaltSent (linkOf i) (isOdd i) s t

/-- The pages of an extent have been returned with no frame waiting for space and the reserve full: each condemned or worn one stands in the
Bad Set, and the others at the tail of the Free Pool in extent order (R5). -/
structure PagesReturned (pages : List Page) (s t : State) : Prop where
  free   : t.store.freePool = s.store.freePool ++
    pages.filter fun p => !((s.attr p).condemned || decide (s.params.migrationThreshold ≤ (s.attr p).wear))
  bad    : ∀ p, p ∈ t.store.bad ↔ p ∈ s.store.bad ∨
    (p ∈ pages ∧ ((s.attr p).condemned = true ∨ s.params.migrationThreshold ≤ (s.attr p).wear))
  spares : t.store.spares = s.store.spares

/-! ### Tenders and their orders -/

/-- The order after a DECLINED report with this cause (R64). -/
def Order.afterDecline (cause : TenderOutcome) (s : State) (o : Order) : Order :=
  if o.state = .settling then
    { o with tender := none, valueAuthorized := 0, lastOutcome := some .declined, state := .closed, finish := some .voided }
  else if o.cancelRequested then
    { o with tender := none, valueAuthorized := 0, lastOutcome := some cause, state := .abandoned, finish := some .cancelled }
  else
    { o with
      tender := none, valueAuthorized := 0, lastOutcome := some cause, state := .open
      idleDeadline := if s.params.idleLimit = 0 then none else some (s.params.idleLimit * 1000) }

/-- The order after a VOIDED report (R64). -/
def Order.afterVoid (s : State) (o : Order) : Order :=
  if o.state = .settling then { o with valueAuthorized := 0, state := .closed, finish := some .voided }
  else if o.cancelRequested then { o with valueAuthorized := 0, state := .abandoned, finish := some .cancelled }
  else
    { o with
      tender := none, valueAuthorized := 0, lastOutcome := some .short, state := .open
      idleDeadline := if s.params.idleLimit = 0 then none else some (s.params.idleLimit * 1000) }

/-- Only money has moved, in tender t and in its order, whose flag is set; no other tender has changed. -/
structure MoneyOf (t n : Nat) (s u : State) : Prop where
  only    : OnlyMoney s u
  quiet   : Quiet s u
  flag    : orderFlag n ∈ u.link.flags
  tenders : ∀ k, k ≠ t → u.tender k = s.tender k
  orders  : ∀ m, m ≠ n → u.order m = s.order m

/-- The tender has entered DECLINED with this cause: it is freed, and its order has taken the report (R95, R64). -/
structure DeclinedAs (t : Nat) (r : Tender) (o : Order) (cause : TenderOutcome) (s u : State) : Prop where
  money : MoneyOf t r.order s u
  freed : u.tender t = none
  order : u.order r.order = some (o.afterDecline cause s)

/-- The tender has entered VOIDED: it is freed after a short approval that no withdrawal asked to void, and its order has taken the report
(R95, R64). -/
structure VoidedAs (t : Nat) (r : Tender) (o : Order) (s u : State) : Prop where
  money  : MoneyOf t r.order s u
  freed  : r.shortApproval = true → r.withdrawRequested = false → u.tender t = none
  stands : r.shortApproval = false ∨ r.withdrawRequested = true →
    u.tender t = some { r with money := .voided, exchange := .none, phase := none, replyDeadline := none }
  order  : u.order r.order = some (o.afterVoid s)

/-- The tender q is left unresolved with exchange NONE, and its order has changed no field (R100, R64). -/
structure LeftUnresolved (t : Nat) (q : Tender) (s u : State) : Prop where
  money  : MoneyOf t q.order s u
  tender : u.tender t = some { q with unresolved := true, exchange := .none, phase := none, replyDeadline := none }
  order  : u.order q.order = s.order q.order

/-- A message of this kind has been handed to the line within the exchange of tender q, and no order has changed (R98). -/
structure HandsOver (i : Fin 4) (t : Nat) (kind : OutKind) (q : Tender) (s u : State) : Prop where
  money  : MoneyOf t q.order s u
  book   : u.book = s.book
  tender : u.tender t = some { q with phase := some .sending, messageBegun := false, replyDeadline := none }
  handed : ∃ m, (u.line i).txQueue = [m] ∧ m.kind = kind ∧ m.tender = t ∧ m.current = true

/-- A tender that joins the tail of the line's Exchange Queue waits there: the line is out of service, or busy with another tender (R97). -/
def MustWait (i : Fin 4) (t : Nat) (s : State) : Prop :=
  s.tenders.inService[i] = false ∨ ∃ k x, k ≠ t ∧ s.tender k = some x ∧ x.line = i ∧ x.exchange = .inExchange

/-- The line takes a tender that joins its Exchange Queue at once: it is in service, and nothing waits or is sent there (R97, R98). -/
structure IsFree (i : Fin 4) (t : Nat) (s : State) : Prop where
  service : s.tenders.inService[i] = true
  queue   : s.exchangeQueue i = []
  up      : (s.line i).state = .up
  silent  : (s.line i).txQueue = []
  table   : Ascending s.tenders.tenders
  alone   : ∀ k x, s.tender k = some x → x.line = i → x.exchange = .inExchange → k = t

/-- Tender q has joined the tail of its line's Exchange Queue: it waits there where it must, and where the line was free for it its message
has been handed over (R97, R98). -/
structure QueuedAfresh (i : Fin 4) (t : Nat) (kind : OutKind) (q : Tender) (s u : State) : Prop where
  waits  : MustWait i t s →
    u.tender t = some { q with exchange := .waitingLine, phase := none, replyDeadline := none } ∧
    u.exchangeQueue i = s.exchangeQueue i ++ [t] ∧ ∀ k, k ≠ t → u.tender k = s.tender k
  begins : IsFree i t s →
    u.tender t = some { q with exchange := .inExchange, phase := some .sending, messageBegun := false, replyDeadline := none } ∧
    u.exchangeQueue i = [] ∧ (∃ m, (u.line i).txQueue = [m] ∧ m.kind = kind ∧ m.tender = t ∧ m.current = true) ∧
    ∀ k, k ≠ t → u.tender k = s.tender k

/-- Command c is this approval of an amount with a reference: an APPROVED reply to SALE or WITHDRAW, or a STATE APPROVED answer about one of
them (R101). -/
def Approves (i : Fin 4) (t : Fin 32) (a : Nat) (reference : List Byte) (r : Tender) (c : Instr) (q : Reply) : Prop :=
  (c = .approved i t a reference ∧ q = .approved a reference ∧ (r.purpose = .sale ∨ r.purpose = .withdraw)) ∨
  (c = .stateApproved i t a reference ∧ q = .stateApproved a reference ∧ r.purpose = .enquire ∧
    (r.pendingPurpose = some .sale ∨ r.pendingPurpose = some .withdraw))

/-! ### Settlement (section 3.8) -/

/-- Order n stands so, and no other order, no tender and no payment line has changed. -/
structure OrderIs (n : Nat) (o : Order) (s u : State) : Prop where
  order   : u.order n = some o
  others  : ∀ m, m ≠ n → u.order m = s.order m
  tenders : u.tenders = s.tenders
  lines   : u.lines = s.lines

/-- Order o, PRINTING with its every copy resolved, has been settled from s to u (R71): it has no pair left; without a tender it is CLOSED
as CAPTURED, and with one it is SETTLING. Of an APPROVED tender with exchange NONE a capture of the value delivered is asked for, or a void
where nothing was delivered; a tender on its way to VOID is left alone; and any other sets MONEY_MISMATCH (R63, R106). -/
structure Settles (n : Nat) (o : Order) (s u : State) : Prop where
  pairs    : ∀ x ∈ u.ready, x.1 ≠ n
  free     : o.tender = none → OrderIs n { o with state := .closed, finish := some .captured } s u
  mismatch : ∀ k, o.tender = some k →
    (∀ r, s.tender k = some r → r.money ≠ .approved ∨
      (r.exchange ≠ .none ∧ (0 < o.valueDelivered ∨ (r.purpose ≠ .void ∧ r.pendingPurpose ≠ some .void)))) →
    OrderIs n { o with state := .settling } s u ∧ u.hasCondition .moneyMismatch = true
  voiding  : ∀ k r, o.tender = some k → s.tender k = some r → r.money = .approved → o.valueDelivered = 0 →
    r.purpose = .void ∨ r.pendingPurpose = some .void → OrderIs n { o with state := .settling } s u
  asks     : ∀ k r, o.tender = some k → s.tender k = some r → r.money = .approved → r.exchange = .none →
    MustWait r.line k s ∨ IsFree r.line k s →
    u.order n = some { o with state := .settling } ∧ (∀ m, m ≠ n → u.order m = s.order m) ∧
    (0 < o.valueDelivered → QueuedAfresh r.line k .capture { r with
      amountToCapture := some o.valueDelivered, purpose := .capture, pendingPurpose := none, enquiryCount := 0, pendingAnswers := 0 }
      s u) ∧
    (o.valueDelivered = 0 → r.purpose ≠ .void → r.pendingPurpose ≠ some .void → QueuedAfresh r.line k .void { r with
      purpose := .void, pendingPurpose := none, enquiryCount := 0, pendingAnswers := 0 } s u)

/-- The line after a copy that is charged to the reprint allowance: failed where the allowance is used up or the line is stopped, withdrawn
in a cancelled order, and otherwise waiting again with one reprint more used (R69). -/
def OrderLine.charged (o : Order) (cause : SheetCause) (l : OrderLine) : OrderLine :=
  if o.reprintAllowance ≤ l.reprintsUsed ∨ l.stopped = true then
    { l with inFlight := l.inFlight - 1, failed := l.failed + 1, lastFault := some cause }
  else if o.cancelRequested = true then
    { l with inFlight := l.inFlight - 1, withdrawn := l.withdrawn + 1, lastFault := some cause }
  else { l with inFlight := l.inFlight - 1, reprintsUsed := l.reprintsUsed + 1, lastFault := some cause }

/-- The line after a copy that is returned: failed on a stopped line, withdrawn in a cancelled order, and otherwise waiting again (R69). -/
def OrderLine.returned (o : Order) (cause : SheetCause) (l : OrderLine) : OrderLine :=
  if l.stopped = true then { l with inFlight := l.inFlight - 1, failed := l.failed + 1, lastFault := some cause }
  else if o.cancelRequested = true then
    { l with inFlight := l.inFlight - 1, withdrawn := l.withdrawn + 1, lastFault := some cause }
  else { l with inFlight := l.inFlight - 1, lastFault := some cause }

/-- Order o has counted a copy: its line stands as l and its value delivered as said (R68, R69). While a copy of the order is unresolved
the line has a pair exactly where copies wait, and every other pair stays; once every copy is resolved the order is settled (R71). -/
structure Counted (n : Nat) (o : Order) (l : OrderLine) (value : Nat) (s u : State) : Prop where
  quiet   : Quiet s u
  flag    : orderFlag n ∈ u.link.flags
  store   : u.store = s.store
  goesOn  : (∃ m ∈ (o.setLine l).lines, 0 < m.waiting ∨ 0 < m.inFlight) →
    OrderIs n { o.setLine l with valueDelivered := value } s u ∧ ((n, l.number) ∈ u.ready ↔ 0 < l.waiting) ∧
    ∀ x, x ≠ (n, l.number) → (x ∈ u.ready ↔ x ∈ s.ready)
  settles : (∀ m ∈ (o.setLine l).lines, m.waiting = 0 ∧ m.inFlight = 0) →
    Settles n { o.setLine l with valueDelivered := value } s u

/-! ### Line trouble (section 5.7) -/

/-- Tender k is in exchange on line i, and no other tender is. -/
structure SoleExchange (i : Fin 4) (k : Nat) (r : Tender) (s : State) : Prop where
  held     : s.tender k = some r
  line     : r.line = i
  exchange : r.exchange = .inExchange
  alone    : ∀ j x, s.tender j = some x → x.line = i → x.exchange = .inExchange → j = k

/-- No tender is in exchange on line i. -/
def NoExchange (i : Fin 4) (s : State) : Prop := ∀ k x, s.tender k = some x → x.line = i → x.exchange ≠ .inExchange

/-- What a line that gives up its messages has reported of tender k: its first message may have begun (R82, R99). -/
def Tender.reported (k : Nat) (p : PayLine) (r : Tender) : Tender :=
  match p.txQueue with
  | m :: _ =>
    if m.tender = k ∧ (0 < p.txSent ∨ p.txChar = .own) then
      { r with messageBegun := r.messageBegun || m.current, saleSent := r.saleSent || decide (m.kind = .sale) }
    else r
  | [] => r

/-- The table of R112: the tender as the loss of its line places it at the head of the queue; none where it enters DECLINED instead. -/
def Tender.placement (r : Tender) : Option Tender :=
  if r.purpose = .withdraw ∧ r.saleSent = false then none
  else if ((r.purpose = .sale ∨ r.purpose = .withdraw) ∧ r.saleSent = true) ∨
      ((r.purpose = .capture ∨ r.purpose = .void) ∧ r.messageBegun = true) then
    some { r with purpose := .enquire, pendingPurpose := some r.purpose }
  else some r

/-- LINE LOST has been taken for line i after its reports on the messages it held (R112): its view is OUT_OF_SERVICE, and the tender in
exchange is placed at the head of the queue, or DECLINED as WITHDRAWN; no other tender and no other queue changes. -/
structure ExchangeLost (i : Fin 4) (s u : State) : Prop where
  view     : ∀ j, u.tenders.inService[j] = if j = i then false else s.tenders.inService[j]
  queues   : ∀ j, j ≠ i → u.exchangeQueue j = s.exchangeQueue j
  idle     : NoExchange i s → (∀ k, u.tender k = s.tender k) ∧ u.exchangeQueue i = s.exchangeQueue i
  placed   : ∀ k r q, SoleExchange i k r s → (r.reported k (s.line i)).placement = some q →
    u.tender k = some { q with exchange := .waitingLine, phase := none, replyDeadline := none } ∧
    u.exchangeQueue i = k :: s.exchangeQueue i ∧ ∀ j, j ≠ k → u.tender j = s.tender j
  declined : ∀ k r, SoleExchange i k r s → (r.reported k (s.line i)).placement = none →
    u.tender k = none ∧ u.exchangeQueue i = (s.exchangeQueue i).filter (fun j => j ≠ k) ∧ (∀ j, j ≠ k → u.tender j = s.tender j) ∧
    ∀ o, s.order r.order = some o → o.state = .locked ∨ o.state = .settling →
      u.order r.order = some (o.afterDecline .withdrawn s)

/-- The tender, at rest and unresolved, is taken up again by its line's LINE UP (R113). -/
def Tender.resumable (i : Fin 4) (r : Tender) : Bool := decide (r.line = i) && r.unresolved && decide (r.exchange = .none)

/-- The tender with its enquiry taken up again, where LINE UP takes it up (R113). -/
def Tender.resumed (i : Fin 4) (r : Tender) : Tender :=
  if r.resumable i then { r with unresolved := false, enquiryCount := 0, pendingAnswers := 0 } else r

/-- LINE UP has been taken for line i, on which nothing was in exchange or being sent (R113): its view is IN_SERVICE, its unresolved tenders
are taken up again behind the tenders that wait, and the head of the queue begins its exchange with the message of its purpose. -/
structure LineServed (i : Fin 4) (s u : State) : Prop where
  view   : ∀ j, u.tenders.inService[j] = if j = i then true else s.tenders.inService[j]
  empty  : s.exchangeQueue i ++ s.unresolvedOn i = [] → NoExchange i s →
    (∀ k, u.tender k = s.tender k) ∧ (∀ j, u.exchangeQueue j = s.exchangeQueue j) ∧ u.book = s.book
  begins : ∀ k rest r, s.exchangeQueue i ++ s.unresolvedOn i = k :: rest → NoExchange i s → (s.line i).txQueue = [] →
    s.tender k = some r → r.line = i →
    u.exchangeQueue i = rest ∧ (∀ j, j ≠ i → u.exchangeQueue j = s.exchangeQueue j) ∧ u.book = s.book ∧
    u.tender k = some { r.resumed i with exchange := .inExchange, phase := some .sending, messageBegun := false, replyDeadline := none } ∧
    (u.line i).txQueue = [⟨r.purpose, k, r.message k r.purpose, true⟩] ∧
    ∀ j, j ≠ k → u.tender j = (s.tender j).map fun x =>
      if x.resumable i then { x.resumed i with exchange := .waitingLine, phase := none, replyDeadline := none } else x

/-! ### Parameters at work (R184) -/

/-- The holds of every engine have been made what the sensors give (R167), after which the arbiters may have granted. -/
def HoldsFollow (s u : State) : Prop :=
  ∀ e, (u.engine e).setup = { s.engine e with holds := { (s.engine e).holds with
    thermalHigh := u.wantsHigh e, thermalStale := u.wantsStale e } }.setup

/-- The spare target has risen to v (R4): while no frame waits for space pages go from the Free Pool's head to the reserve until it is full
or the pool empty, and STORE_LOW is judged at each; while one waits none goes. Where the Migration Queue holds a page and no migration is in
progress each of them is a migration's to take first (R24), of which this says nothing. -/
structure SparesRaised (v : Nat) (s u : State) : Prop where
  holds  : s.store.waitList ≠ [] → u.store = s.store
  refill : s.store.waitList = [] → s.store.migration ≠ none ∨ s.store.migrationQueue = [] →
    (s.store.spares ++ s.store.freePool).Nodup → ∀ k, k = min (v - s.store.spares.length) s.store.freePool.length →
    u.store = { s.store with freePool := s.store.freePool.drop k, spares := u.store.spares } ∧
    (∀ q, q ∈ u.store.spares ↔ q ∈ s.store.spares ∨ q ∈ s.store.freePool.take k) ∧
    u.store.spares.length = s.store.spares.length + k ∧
    u.hasCondition .storeLow = (s.hasCondition .storeLow || decide (0 < k ∧ s.store.freePool.length - k < s.params.lowMark))

/-- The spare target has fallen to v (R4): spares above it leave the reserve, the highest first, and are returned. -/
structure SparesLowered (v : Nat) (s u : State) : Prop where
  enough : s.store.spares.length ≤ v → u.store = s.store
  excess : v < s.store.spares.length → s.store.waitList = [] →
    PagesReturned (s.store.spares.drop v).reverse { s with store := { s.store with spares := s.store.spares.take v } } u ∧
    u.store = { s.store with freePool := u.store.freePool, bad := u.store.bad, spares := u.store.spares }

/-- The scrub interval has become v (R22): 0 takes a RUNNING patrol to IDLE, any other an IDLE one to RUNNING, and a STOPPED one stays. That
an interval of 0 drops a search that is due is the model's choice (log entry 24). -/
structure PatrolFollows (v : Nat) (s u : State) : Prop where
  only  : u = { s with link := u.link, params := u.params, store := u.store }
  stays : s.store.patrol = .stopped ∨ (s.store.patrol = .running ↔ 0 < v) → u.store = s.store
  idles : s.store.patrol = .running → v = 0 →
    u.store = { s.store with patrol := .idle, scrubTimer := none, searchDue := false }
  runs  : s.store.patrol = .idle → 0 < v → u.store = { s.store with patrol := .running, scrubTimer := some v }

/-- The claim of a poll whose sensor leaves the mask as it goes from old to new yields no reading (R163). -/
def Claim.leaving (old new : Nat) : Claim → Claim
  | .poll i void => .poll i (void || (old.testBit i.val && !new.testBit i.val))
  | c => c

/-- The present mask has become v (R165): a sensor that leaves or joins it keeps nothing, a poll in progress of one that leaves is void, the
holds are evaluated, and the poller becomes IDLE at 0000, where it was not STOPPED, and RUNNING from it, with a poll made at once. -/
structure MaskFollows (v : Nat) (s u : State) : Prop where
  sensors : ∀ i : Fin 4, u.sensor i = if s.params.presentMask.testBit i.val = v.testBit i.val then s.sensor i else ⟨none, none, false⟩
  holds   : HoldsFollow s u
  idles   : v = 0 →
    u.thermal = { s.thermal with
      sensors := u.thermal.sensors, pollTimer := none, state := if s.thermal.state = .stopped then .stopped else .idle } ∧
    u.bus = { s.bus with
      current := s.bus.current.map (Claim.leaving s.params.presentMask v), claims := s.bus.claims.filter fun c => !c.isPoll }
  goesOn  : v ≠ 0 → s.params.presentMask ≠ 0 ∨ s.thermal.state ≠ .idle →
    u.thermal = { s.thermal with sensors := u.thermal.sensors } ∧
    u.bus = { s.bus with current := s.bus.current.map (Claim.leaving s.params.presentMask v) }
  starts  : ∀ i, v ≠ 0 → s.params.presentMask = 0 → s.thermal.state = .idle → u.firstPresent s.thermal.cursor = some i →
    (∀ c ∈ s.bus.claims, c.isPoll = false) →
    u.thermal = { s.thermal with
      sensors := u.thermal.sensors, state := .running, stopCause := none, cursor := (u.firstPresent (i + 1)).getD i } ∧
    (s.bus.current = none → s.bus.claims = [] →
      u.bus = { s.bus with current := some (.poll i false), writeLeft := none, ackWindow := none }) ∧
    (s.bus.current ≠ none → u.bus = { s.bus with claims := s.bus.claims ++ [.poll i false] })
  mem     : u.store.mem = s.store.mem

/-- Parameter p has taken the new value v from s to u, and its owning block has acted on it at once (R184). -/
structure ParameterActs (p v : Nat) (s u : State) : Prop where
  raised  : p = 0 → s.params.spareTarget < v → SparesRaised v s u
  lowered : p = 0 → v < s.params.spareTarget → SparesLowered v s u
  spares  : p = 0 → u = { s with link := u.link, params := u.params, store := u.store, cards := u.cards }
  low     : p = 1 → u = { s with link := u.link, params := u.params } ∧
    ∀ c, u.hasCondition c = (s.hasCondition c || decide (c = .storeLow ∧ s.store.freePool.length < v))
  patrol  : p = 3 → PatrolFollows v s u
  seed    : p = 7 → u = { s with link := u.link, params := u.params, book := { s.book with lastCode := none } }
  mask    : p = 11 → MaskFollows v s u
  stale   : p = 16 → HoldsFollow s u ∧ u.thermal = s.thermal ∧ u.bus = s.bus ∧ u.store.mem = s.store.mem
  others  : p ∉ [0, 1, 3, 7, 11, 16] → u = { s with link := u.link, params := u.params }

/-! ### Pages: waiting for space, wear and damage (sections 1.2 to 1.5) -/

/-- Frame n, which stood at the head of the Space Wait List as g, has received these pages: it is OPEN, or QUEUED where it comes from a card,
and STORE_LOW is judged by what the Free Pool holds then (R7, R8, R3). -/
structure Granted (n : Nat) (g : Frame) (pages : List Page) (s u : State) : Prop where
  frame : u.frame n = some { g with extent := pages, state := if g.origin = .host then .open else .queued }
  left  : n ∉ u.store.waitList
  low   : u.store.freePool.length < s.params.lowMark → u.hasCondition .storeLow = true

/-- Page p joins the Migration Queue at a correctable error that brings its wear to w: the conditions of R20 on the page, which lies in the
extent of a READY frame. -/
def Admissible (p : Page) (w : Nat) (s : State) : Prop :=
  s.params.migrationThreshold ≤ w ∧ p ∉ s.store.migrationQueue ∧ (∀ m, s.store.migration = some m → m.page ≠ p) ∧
  s.store.migrationQueue.length < 16

/-- A read has met correctable groups on page p of the READY frame n and brought its wear to w: the page stays out of the Migration Queue
where a condition of R20 fails, and otherwise joins its tail; where it joins an empty queue and no migration is in progress, its migration
starts with the lowest spare as the target and asks for its first burst, or SPARES_EMPTY is set and the page stays at the queue's head
(R20, R24). -/
structure WearCounted (p : Page) (w n : Nat) (s u : State) : Prop where
  wear   : (u.attr p).wear = w
  stays  : ¬ Admissible p w s → u.store.migrationQueue = s.store.migrationQueue ∧ u.store.migration = s.store.migration ∧
    u.store.spares = s.store.spares
  joins  : Admissible p w s → s.store.migrationQueue ≠ [] ∨ s.store.migration ≠ none →
    u.store.migrationQueue = s.store.migrationQueue ++ [p] ∧ u.store.migration = s.store.migration ∧ u.store.spares = s.store.spares
  starts : ∀ t rest, Admissible p w s → s.store.migrationQueue = [] → s.store.migration = none → s.store.spares = t :: rest →
    u.store.migrationQueue = [] ∧ u.store.migration = some ⟨p, t, n, 0⟩ ∧ u.store.spares = rest ∧
    Access.migration p t 0 ∈ u.store.port.waiting
  empty  : Admissible p w s → s.store.migrationQueue = [] → s.store.migration = none → s.store.spares = [] →
    u.store.migrationQueue = [p] ∧ u.store.migration = none ∧ u.hasCondition .sparesEmpty = true

/-- Page p, which met an uncorrectable group, lies in the extent of the READY frame f of number n, and in no other frame's is a page of
its extent. -/
structure LiesIn (p : Page) (n : Nat) (f : Frame) (s : State) : Prop where
  owner  : s.owner p = some n
  frame  : s.frame n = some f
  page   : p ∈ f.extent
  ready  : f.state = .ready
  alone  : ∀ m g, m ≠ n → s.frame m = some g → ∀ q ∈ f.extent, q ∉ g.extent
  tables : TablesSound s

/-- The READY frame f of number n has met an uncorrectable group on its page p from s to u: it is DAMAGED with STORE_ERROR, and its notice
stands for the Order Book; its pages leave the Migration Queue, a migration of one of them is abandoned and its target handed back, and its
pages stay until no channel pins it and no host data request on it waits; then they are returned, page p to the Bad Set (R14, R21, R26). A
frame that release pending retires meanwhile is gone. -/
structure StoreDamaged (p : Page) (n : Nat) (f : Frame) (s u : State) : Prop where
  record   : ∀ q, u.frame n = some q → q = { f with
    state := .damaged, cause := some .storeError, extent := q.extent, pins := q.pins, retiring := q.retiring }
  stands   : 0 < f.references ∨ f.releasePending = false → u.frame n ≠ none ∧ n ∈ u.store.notices ∧ frameFlag n ∈ u.link.flags
  queue    : ∀ q ∈ f.extent, q ∉ u.store.migrationQueue
  halted   : ∀ m, u.store.migration = some m → m.page ∉ f.extent
  back     : ∀ m, s.store.migration = some m → m.page ∈ f.extent → (∀ q ∈ s.store.migrationQueue, q ∈ f.extent) →
    s.store.spares.length < s.params.spareTarget → u.store.migration = none ∧ m.target ∈ u.store.spares
  pinned   : ∀ q, u.frame n = some q → 0 < q.pins → q.extent = f.extent
  returned : (∀ a ∈ s.store.port.waiting, a.isHostOn n = false) →
    (∀ q, u.frame n = some q → q.pins = 0 → q.extent = [] ∧ p ∈ u.store.bad) ∧ (u.frame n = none → p ∈ u.store.bad)

/-! ### Polling -/

/-- The Thermal Watch whose polling a STUCK result has stopped: STOPPED with cause STUCK (R160, R162). -/
def Thermal.stuck (t : Thermal) : Thermal := { t with state := .stopped, stopCause := some .stuck, pollTimer := none }

/-- The Thermal Watch after a STUCK result of a host or loader transfer: STOPPED with cause STUCK, but an IDLE poller stays IDLE once
start-up has ended (R160, R162). -/
def State.afterStuck (s : State) : Thermal :=
  if s.thermal.state = .idle ∧ s.part.started = true then s.thermal else s.thermal.stuck

end Sys2Proof.Machine
end

