-- ==== Sys2Proof/Laws/PerInstr.lean ====
section
/-! SUPPORT. The request frame of every command, command by command: decoding what a request is encoded to gives the request again, and
the payload's length lies in the range of its code (sections 9.1.1 and 9.2). -/

namespace Sys2Proof

theorem toWord16_ofWord16 (w : Word16) : toWord16 (w.extractLsb' 8 8) (w.extractLsb' 0 8) = w := by
  unfold toWord16
  apply BitVec.eq_of_getLsbD_eq
  intro i hi
  simp only [BitVec.getLsbD_append, BitVec.getLsbD_extractLsb']
  by_cases h : i < 8
  · simp [h]
  · have e : 8 + (i - 8) = i := by omega
    have l : i - 8 < 8 := by omega
    simp [h, e, l]

theorem toWord32_ofWord32 (w : Word32) :
    toWord32 (w.extractLsb' 24 8) (w.extractLsb' 16 8) (w.extractLsb' 8 8) (w.extractLsb' 0 8) = w := by
  unfold toWord32
  apply BitVec.eq_of_getLsbD_eq
  intro i hi
  simp only [BitVec.getLsbD_append, BitVec.getLsbD_extractLsb']
  by_cases h : i < 8
  · simp [h, show i < 16 by omega]
  · by_cases h1 : i < 16
    · have e : 8 + (i - 8) = i := by omega
      have l : i - 8 < 8 := by omega
      simp [h, h1, e, l]
    · by_cases h2 : i < 24
      · have e : 16 + (i - 16) = i := by omega
        have l : i - 16 < 8 := by omega
        simp [h1, e, l]
      · have e : 24 + (i - 16 - 8) = i := by omega
        have l : ¬ i - 16 < 8 := by omega
        have l1 : i - 16 - 8 < 8 := by omega
        simp [h1, e, l, l1]

namespace Laws.RequestRoundTrip

/-- A request whose payload length suits its code is read back from the code and the payload that encode it, and that length lies in
the range of the code. -/
def Statement (i : Instr) : Prop :=
  i.lengthSuits = true → ∀ code payload, encodeRequest i = some (code, payload) →
    decodeRequest code payload = some i ∧
    ∃ range, requestLengths code = some range ∧ range.1 ≤ payload.length ∧ payload.length ≤ range.2

theorem powerOn : Statement (.powerOn) := fun _ _ _ h => nomatch h

theorem storeInitComplete : Statement (.storeInitComplete) := fun _ _ _ h => nomatch h

theorem pinReset : Statement (.pinReset) := fun _ _ _ h => nomatch h

theorem pinResetRelease : Statement (.pinResetRelease) := fun _ _ _ h => nomatch h

theorem requestFrameStart : Statement (.requestFrameStart) := fun _ _ _ h => nomatch h

theorem requestFrame (code : Byte) (length : Word16) (payload : List Byte) (crc : Word16) : Statement (.requestFrame code length payload crc) := fun _ _ _ h => nomatch h

theorem overrunByte (b : Byte) : Statement (.overrunByte b) := fun _ _ _ h => nomatch h

theorem csNRise : Statement (.csNRise) := fun _ _ _ h => nomatch h

theorem csNFall : Statement (.csNFall) := fun _ _ _ h => nomatch h

theorem fillerByte (b : Byte) : Statement (.fillerByte b) := fun _ _ _ h => nomatch h

theorem identifyPart : Statement (.identifyPart) := by
  intro _ code payload h
  obtain ⟨rfl, rfl⟩ := Prod.mk.inj (Option.some.inj h)
  exact ⟨rfl,
    (0, 0), by decide, Nat.le_refl _, Nat.le_refl _⟩

theorem readConditions (clearMask : Word16) : Statement (.readConditions clearMask) := by
  intro _ code payload h
  obtain ⟨rfl, rfl⟩ := Prod.mk.inj (Option.some.inj h)
  exact ⟨Eq.trans (b := some (.readConditions (toWord16 (clearMask.extractLsb' 8 8) (clearMask.extractLsb' 0 8)))) (rfl)
    (by simp only [toWord16_ofWord16]),
    (2, 2), by decide, Nat.le_refl _, Nat.le_refl _⟩

theorem takeChanges : Statement (.takeChanges) := by
  intro _ code payload h
  obtain ⟨rfl, rfl⟩ := Prod.mk.inj (Option.some.inj h)
  exact ⟨rfl,
    (0, 0), by decide, Nat.le_refl _, Nat.le_refl _⟩

theorem setParameter (parameter : Byte) (value : Word32) : Statement (.setParameter parameter value) := by
  intro _ code payload h
  obtain ⟨rfl, rfl⟩ := Prod.mk.inj (Option.some.inj h)
  exact ⟨Eq.trans (b := some (.setParameter parameter (toWord32 (value.extractLsb' 24 8) (value.extractLsb' 16 8) (value.extractLsb' 8 8) (value.extractLsb' 0 8)))) (rfl)
    (by simp only [toWord32_ofWord32]),
    (5, 5), by decide, Nat.le_refl _, Nat.le_refl _⟩

theorem readParameter (parameter : Byte) : Statement (.readParameter parameter) := by
  intro _ code payload h
  obtain ⟨rfl, rfl⟩ := Prod.mk.inj (Option.some.inj h)
  exact ⟨rfl,
    (1, 1), by decide, Nat.le_refl _, Nat.le_refl _⟩

theorem restart : Statement (.restart) := by
  intro _ code payload h
  obtain ⟨rfl, rfl⟩ := Prod.mk.inj (Option.some.inj h)
  exact ⟨rfl,
    (0, 0), by decide, Nat.le_refl _, Nat.le_refl _⟩

theorem createFrame (byteLength : Word32) : Statement (.createFrame byteLength) := by
  intro _ code payload h
  obtain ⟨rfl, rfl⟩ := Prod.mk.inj (Option.some.inj h)
  exact ⟨Eq.trans (b := some (.createFrame (toWord32 (byteLength.extractLsb' 24 8) (byteLength.extractLsb' 16 8) (byteLength.extractLsb' 8 8) (byteLength.extractLsb' 0 8)))) (rfl)
    (by simp only [toWord32_ofWord32]),
    (4, 4), by decide, Nat.le_refl _, Nat.le_refl _⟩

theorem writeFrameData (frame : Word16) (offset : Word32) (data : List Byte) : Statement (.writeFrameData frame offset data) := by
  intro hl code payload h
  obtain ⟨rfl, rfl⟩ := Prod.mk.inj (Option.some.inj h)
  have hd : 1 ≤ data.length ∧ data.length ≤ 512 := by simpa [Instr.lengthSuits] using hl
  refine ⟨Eq.trans (b := some (.writeFrameData (toWord16 (frame.extractLsb' 8 8) (frame.extractLsb' 0 8)) (toWord32 (offset.extractLsb' 24 8) (offset.extractLsb' 16 8) (offset.extractLsb' 8 8) (offset.extractLsb' 0 8)) data)) (Eq.trans (b := if 1 ≤ data.length ∧ data.length ≤ 512 then some (.writeFrameData (toWord16 (frame.extractLsb' 8 8) (frame.extractLsb' 0 8)) (toWord32 (offset.extractLsb' 24 8) (offset.extractLsb' 16 8) (offset.extractLsb' 8 8) (offset.extractLsb' 0 8)) data) else none) rfl (if_pos hd))
    (by simp only [toWord16_ofWord16, toWord32_ofWord32]), (7, 518), by decide, ?_, ?_⟩
  · simp [ofWord16, ofWord32]; omega
  · simp [ofWord16, ofWord32]; omega

theorem hostWriteComplete : Statement (.hostWriteComplete) := fun _ _ _ h => nomatch h

theorem sealFrame (frame : Word16) : Statement (.sealFrame frame) := by
  intro _ code payload h
  obtain ⟨rfl, rfl⟩ := Prod.mk.inj (Option.some.inj h)
  exact ⟨Eq.trans (b := some (.sealFrame (toWord16 (frame.extractLsb' 8 8) (frame.extractLsb' 0 8)))) (rfl)
    (by simp only [toWord16_ofWord16]),
    (2, 2), by decide, Nat.le_refl _, Nat.le_refl _⟩

theorem sealWriteComplete : Statement (.sealWriteComplete) := fun _ _ _ h => nomatch h

theorem readFrameData (frame : Word16) (offset : Word32) (count : Word16) : Statement (.readFrameData frame offset count) := by
  intro _ code payload h
  obtain ⟨rfl, rfl⟩ := Prod.mk.inj (Option.some.inj h)
  exact ⟨Eq.trans (b := some (.readFrameData (toWord16 (frame.extractLsb' 8 8) (frame.extractLsb' 0 8)) (toWord32 (offset.extractLsb' 24 8) (offset.extractLsb' 16 8) (offset.extractLsb' 8 8) (offset.extractLsb' 0 8)) (toWord16 (count.extractLsb' 8 8) (count.extractLsb' 0 8)))) (rfl)
    (by simp only [toWord16_ofWord16, toWord32_ofWord32]),
    (8, 8), by decide, Nat.le_refl _, Nat.le_refl _⟩

theorem hostReadComplete (first next : ReadErrors) : Statement (.hostReadComplete first next) := fun _ _ _ h => nomatch h

theorem releaseFrame (frame : Word16) : Statement (.releaseFrame frame) := by
  intro _ code payload h
  obtain ⟨rfl, rfl⟩ := Prod.mk.inj (Option.some.inj h)
  exact ⟨Eq.trans (b := some (.releaseFrame (toWord16 (frame.extractLsb' 8 8) (frame.extractLsb' 0 8)))) (rfl)
    (by simp only [toWord16_ofWord16]),
    (2, 2), by decide, Nat.le_refl _, Nat.le_refl _⟩

theorem readFrame (frame : Word16) : Statement (.readFrame frame) := by
  intro _ code payload h
  obtain ⟨rfl, rfl⟩ := Prod.mk.inj (Option.some.inj h)
  exact ⟨Eq.trans (b := some (.readFrame (toWord16 (frame.extractLsb' 8 8) (frame.extractLsb' 0 8)))) (rfl)
    (by simp only [toWord16_ofWord16]),
    (2, 2), by decide, Nat.le_refl _, Nat.le_refl _⟩

theorem readStore : Statement (.readStore) := by
  intro _ code payload h
  obtain ⟨rfl, rfl⟩ := Prod.mk.inj (Option.some.inj h)
  exact ⟨rfl,
    (0, 0), by decide, Nat.le_refl _, Nat.le_refl _⟩

theorem scrubPage (page : Word16) : Statement (.scrubPage page) := by
  intro _ code payload h
  obtain ⟨rfl, rfl⟩ := Prod.mk.inj (Option.some.inj h)
  exact ⟨Eq.trans (b := some (.scrubPage (toWord16 (page.extractLsb' 8 8) (page.extractLsb' 0 8)))) (rfl)
    (by simp only [toWord16_ofWord16]),
    (2, 2), by decide, Nat.le_refl _, Nat.le_refl _⟩

theorem resumeScrub : Statement (.resumeScrub) := by
  intro _ code payload h
  obtain ⟨rfl, rfl⟩ := Prod.mk.inj (Option.some.inj h)
  exact ⟨rfl,
    (0, 0), by decide, Nat.le_refl _, Nat.le_refl _⟩

theorem scrubTimerExpiry : Statement (.scrubTimerExpiry) := fun _ _ _ h => nomatch h

theorem scrubPortionComplete (errors : ReadErrors) : Statement (.scrubPortionComplete errors) := fun _ _ _ h => nomatch h

theorem migrationBurstComplete (errors : ReadErrors) : Statement (.migrationBurstComplete errors) := fun _ _ _ h => nomatch h

theorem frameDamageNotice (frame : Fin 1024) : Statement (.frameDamageNotice frame) := fun _ _ _ h => nomatch h

theorem detectActive (slot : Fin 8) : Statement (.detectActive slot) := fun _ _ _ h => nomatch h

theorem detectReleaseSettling (slot : Fin 8) : Statement (.detectReleaseSettling slot) := fun _ _ _ h => nomatch h

theorem debounceExpiry (slot : Fin 8) : Statement (.debounceExpiry slot) := fun _ _ _ h => nomatch h

theorem cardRemoval (slot : Fin 8) : Statement (.cardRemoval slot) := fun _ _ _ h => nomatch h

theorem resetSlot (slot : Byte) : Statement (.resetSlot slot) := by
  intro _ code payload h
  obtain ⟨rfl, rfl⟩ := Prod.mk.inj (Option.some.inj h)
  exact ⟨rfl,
    (1, 1), by decide, Nat.le_refl _, Nat.le_refl _⟩

theorem readSlot (slot : Byte) : Statement (.readSlot slot) := by
  intro _ code payload h
  obtain ⟨rfl, rfl⟩ := Prod.mk.inj (Option.some.inj h)
  exact ⟨rfl,
    (1, 1), by decide, Nat.le_refl _, Nat.le_refl _⟩

theorem importFrame (slot session : Byte) (startBlock byteLength : Word32) : Statement (.importFrame slot session startBlock byteLength) := by
  intro _ code payload h
  obtain ⟨rfl, rfl⟩ := Prod.mk.inj (Option.some.inj h)
  exact ⟨Eq.trans (b := some (.importFrame slot session (toWord32 (startBlock.extractLsb' 24 8) (startBlock.extractLsb' 16 8) (startBlock.extractLsb' 8 8) (startBlock.extractLsb' 0 8)) (toWord32 (byteLength.extractLsb' 24 8) (byteLength.extractLsb' 16 8) (byteLength.extractLsb' 8 8) (byteLength.extractLsb' 0 8)))) (rfl)
    (by simp only [toWord32_ofWord32]),
    (10, 10), by decide, Nat.le_refl _, Nat.le_refl _⟩

theorem cancelImport (frame : Word16) : Statement (.cancelImport frame) := by
  intro _ code payload h
  obtain ⟨rfl, rfl⟩ := Prod.mk.inj (Option.some.inj h)
  exact ⟨Eq.trans (b := some (.cancelImport (toWord16 (frame.extractLsb' 8 8) (frame.extractLsb' 0 8)))) (rfl)
    (by simp only [toWord16_ofWord16]),
    (2, 2), by decide, Nat.le_refl _, Nat.le_refl _⟩

theorem linkGrant (link : Fin 4) : Statement (.linkGrant link) := fun _ _ _ h => nomatch h

theorem responseToken (link : Fin 4) (token : List Byte) : Statement (.responseToken link token) := fun _ _ _ h => nomatch h

theorem responseWaitExpiry (link : Fin 4) : Statement (.responseWaitExpiry link) := fun _ _ _ h => nomatch h

theorem blockPacket (link : Fin 4) (start : Byte) (data : List Byte) (crc : Word16) : Statement (.blockPacket link start data crc) := fun _ _ _ h => nomatch h

theorem blockWaitExpiry (link : Fin 4) : Statement (.blockWaitExpiry link) := fun _ _ _ h => nomatch h

theorem blockWriteComplete (link : Fin 4) : Statement (.blockWriteComplete link) := fun _ _ _ h => nomatch h

theorem openOrder (station priority : Byte) : Statement (.openOrder station priority) := by
  intro _ code payload h
  obtain ⟨rfl, rfl⟩ := Prod.mk.inj (Option.some.inj h)
  exact ⟨rfl,
    (2, 2), by decide, Nat.le_refl _, Nat.le_refl _⟩

theorem addLine (order : Byte) (frame : Word16) (product quantity fit : Byte) : Statement (.addLine order frame product quantity fit) := by
  intro _ code payload h
  obtain ⟨rfl, rfl⟩ := Prod.mk.inj (Option.some.inj h)
  exact ⟨Eq.trans (b := some (.addLine order (toWord16 (frame.extractLsb' 8 8) (frame.extractLsb' 0 8)) product quantity fit)) (rfl)
    (by simp only [toWord16_ofWord16]),
    (6, 6), by decide, Nat.le_refl _, Nat.le_refl _⟩

theorem changeLine (order line : Byte) (frame : Word16) (product quantity fit : Byte) : Statement (.changeLine order line frame product quantity fit) := by
  intro _ code payload h
  obtain ⟨rfl, rfl⟩ := Prod.mk.inj (Option.some.inj h)
  exact ⟨Eq.trans (b := some (.changeLine order line (toWord16 (frame.extractLsb' 8 8) (frame.extractLsb' 0 8)) product quantity fit)) (rfl)
    (by simp only [toWord16_ofWord16]),
    (7, 7), by decide, Nat.le_refl _, Nat.le_refl _⟩

theorem removeLine (order line : Byte) : Statement (.removeLine order line) := by
  intro _ code payload h
  obtain ⟨rfl, rfl⟩ := Prod.mk.inj (Option.some.inj h)
  exact ⟨rfl,
    (2, 2), by decide, Nat.le_refl _, Nat.le_refl _⟩

theorem lockOrder (order : Byte) : Statement (.lockOrder order) := by
  intro _ code payload h
  obtain ⟨rfl, rfl⟩ := Prod.mk.inj (Option.some.inj h)
  exact ⟨rfl,
    (1, 1), by decide, Nat.le_refl _, Nat.le_refl _⟩

theorem cancelOrder (order : Byte) : Statement (.cancelOrder order) := by
  intro _ code payload h
  obtain ⟨rfl, rfl⟩ := Prod.mk.inj (Option.some.inj h)
  exact ⟨rfl,
    (1, 1), by decide, Nat.le_refl _, Nat.le_refl _⟩

theorem setPriority (order priority : Byte) : Statement (.setPriority order priority) := by
  intro _ code payload h
  obtain ⟨rfl, rfl⟩ := Prod.mk.inj (Option.some.inj h)
  exact ⟨rfl,
    (2, 2), by decide, Nat.le_refl _, Nat.le_refl _⟩

theorem readOrder (order : Byte) : Statement (.readOrder order) := by
  intro _ code payload h
  obtain ⟨rfl, rfl⟩ := Prod.mk.inj (Option.some.inj h)
  exact ⟨rfl,
    (1, 1), by decide, Nat.le_refl _, Nat.le_refl _⟩

theorem findOrder (code : Word32) : Statement (.findOrder code) := by
  intro _ code payload h
  obtain ⟨rfl, rfl⟩ := Prod.mk.inj (Option.some.inj h)
  exact ⟨Eq.trans (b := some (.findOrder (toWord32 (code.extractLsb' 24 8) (code.extractLsb' 16 8) (code.extractLsb' 8 8) (code.extractLsb' 0 8)))) (rfl)
    (by simp only [toWord32_ofWord32]),
    (4, 4), by decide, Nat.le_refl _, Nat.le_refl _⟩

theorem retireOrder (order : Byte) : Statement (.retireOrder order) := by
  intro _ code payload h
  obtain ⟨rfl, rfl⟩ := Prod.mk.inj (Option.some.inj h)
  exact ⟨rfl,
    (1, 1), by decide, Nat.le_refl _, Nat.le_refl _⟩

theorem setPrice (product enabled media : Byte) (price : Word16) : Statement (.setPrice product enabled media price) := by
  intro _ code payload h
  obtain ⟨rfl, rfl⟩ := Prod.mk.inj (Option.some.inj h)
  exact ⟨Eq.trans (b := some (.setPrice product enabled media (toWord16 (price.extractLsb' 8 8) (price.extractLsb' 0 8)))) (rfl)
    (by simp only [toWord16_ofWord16]),
    (5, 5), by decide, Nat.le_refl _, Nat.le_refl _⟩

theorem readPrices : Statement (.readPrices) := by
  intro _ code payload h
  obtain ⟨rfl, rfl⟩ := Prod.mk.inj (Option.some.inj h)
  exact ⟨rfl,
    (0, 0), by decide, Nat.le_refl _, Nat.le_refl _⟩

theorem idleDeadlineExpiry (order : Fin 64) : Statement (.idleDeadlineExpiry order) := fun _ _ _ h => nomatch h

theorem setLine (line : Byte) (rate : Word32) (dataBits parity stopBits enable : Byte) : Statement (.setLine line rate dataBits parity stopBits enable) := by
  intro _ code payload h
  obtain ⟨rfl, rfl⟩ := Prod.mk.inj (Option.some.inj h)
  exact ⟨Eq.trans (b := some (.setLine line (toWord32 (rate.extractLsb' 24 8) (rate.extractLsb' 16 8) (rate.extractLsb' 8 8) (rate.extractLsb' 0 8)) dataBits parity stopBits enable)) (rfl)
    (by simp only [toWord32_ofWord32]),
    (9, 9), by decide, Nat.le_refl _, Nat.le_refl _⟩

theorem readLine (line clear : Byte) : Statement (.readLine line clear) := by
  intro _ code payload h
  obtain ⟨rfl, rfl⟩ := Prod.mk.inj (Option.some.inj h)
  exact ⟨rfl,
    (2, 2), by decide, Nat.le_refl _, Nat.le_refl _⟩

theorem dsrChange (line : Fin 4) (active : Bool) : Statement (.dsrChange line active) := fun _ _ _ h => nomatch h

theorem dsrFilterExpiry (line : Fin 4) : Statement (.dsrFilterExpiry line) := fun _ _ _ h => nomatch h

theorem breakDetected (line : Fin 4) : Statement (.breakDetected line) := fun _ _ _ h => nomatch h

theorem breakEnd (line : Fin 4) : Statement (.breakEnd line) := fun _ _ _ h => nomatch h

theorem rxCharacter (line : Fin 4) (value : Byte) (parityBit stopBit : Bool) : Statement (.rxCharacter line value parityBit stopBit) := fun _ _ _ h => nomatch h

theorem assembleCharacter (line : Fin 4) : Statement (.assembleCharacter line) := fun _ _ _ h => nomatch h

theorem ctsChange (line : Fin 4) (active : Bool) : Statement (.ctsChange line active) := fun _ _ _ h => nomatch h

theorem txCharacterEnd (line : Fin 4) : Statement (.txCharacterEnd line) := fun _ _ _ h => nomatch h

theorem ctsWaitExpiry (line : Fin 4) : Statement (.ctsWaitExpiry line) := fun _ _ _ h => nomatch h

theorem replyDeadlineExpiry (tender : Fin 32) : Statement (.replyDeadlineExpiry tender) := fun _ _ _ h => nomatch h

theorem approved (line : Fin 4) (tender : Fin 32) (amount : Nat) (reference : List Byte) : Statement (.approved line tender amount reference) := fun _ _ _ h => nomatch h

theorem declined (line : Fin 4) (tender : Fin 32) (reason : Nat) : Statement (.declined line tender reason) := fun _ _ _ h => nomatch h

theorem cancelled (line : Fin 4) (tender : Fin 32) : Statement (.cancelled line tender) := fun _ _ _ h => nomatch h

theorem withdrawn (line : Fin 4) (tender : Fin 32) : Statement (.withdrawn line tender) := fun _ _ _ h => nomatch h

theorem captured (line : Fin 4) (tender : Fin 32) (amount : Nat) : Statement (.captured line tender amount) := fun _ _ _ h => nomatch h

theorem voided (line : Fin 4) (tender : Fin 32) : Statement (.voided line tender) := fun _ _ _ h => nomatch h

theorem busy (line : Fin 4) (tender : Fin 32) : Statement (.busy line tender) := fun _ _ _ h => nomatch h

theorem stateNoneDeclinedVoided (line : Fin 4) (tender : Fin 32) (status : NoMoney) : Statement (.stateNoneDeclinedVoided line tender status) := fun _ _ _ h => nomatch h

theorem statePending (line : Fin 4) (tender : Fin 32) : Statement (.statePending line tender) := fun _ _ _ h => nomatch h

theorem stateApproved (line : Fin 4) (tender : Fin 32) (amount : Nat) (reference : List Byte) : Statement (.stateApproved line tender amount reference) := fun _ _ _ h => nomatch h

theorem stateCaptured (line : Fin 4) (tender : Fin 32) (amount : Nat) : Statement (.stateCaptured line tender amount) := fun _ _ _ h => nomatch h

theorem enquireTender (tender : Byte) : Statement (.enquireTender tender) := by
  intro _ code payload h
  obtain ⟨rfl, rfl⟩ := Prod.mk.inj (Option.some.inj h)
  exact ⟨rfl,
    (1, 1), by decide, Nat.le_refl _, Nat.le_refl _⟩

theorem writeOffOrder (order : Byte) : Statement (.writeOffOrder order) := by
  intro _ code payload h
  obtain ⟨rfl, rfl⟩ := Prod.mk.inj (Option.some.inj h)
  exact ⟨rfl,
    (1, 1), by decide, Nat.le_refl _, Nat.le_refl _⟩

theorem readTender (tender : Byte) : Statement (.readTender tender) := by
  intro _ code payload h
  obtain ⟨rfl, rfl⟩ := Prod.mk.inj (Option.some.inj h)
  exact ⟨rfl,
    (1, 1), by decide, Nat.le_refl _, Nat.le_refl _⟩

theorem presenceChange (engine : Fin 3) (active : Bool) : Statement (.presenceChange engine active) := fun _ _ _ h => nomatch h

theorem presenceFilterExpiry (engine : Fin 3) : Statement (.presenceFilterExpiry engine) := fun _ _ _ h => nomatch h

theorem helloTimerExpiry (engine : Fin 3) : Statement (.helloTimerExpiry engine) := fun _ _ _ h => nomatch h

theorem txFrameBoundary (engine : Fin 3) : Statement (.txFrameBoundary engine) := fun _ _ _ h => nomatch h

theorem rxFrameComplete (engine : Fin 3) (kind : Byte) (payload : List Byte) : Statement (.rxFrameComplete engine kind payload) := fun _ _ _ h => nomatch h

theorem receiveFault (engine : Fin 3) : Statement (.receiveFault engine) := fun _ _ _ h => nomatch h

theorem markPairFound (engine : Fin 3) : Statement (.markPairFound engine) := fun _ _ _ h => nomatch h

theorem frameTaken (engine : Fin 3) : Statement (.frameTaken engine) := fun _ _ _ h => nomatch h

theorem ready (engine : Fin 3) (media : Byte) (sheets lastTag : Word16) (bufferFree : Byte) : Statement (.ready engine media sheets lastTag bufferFree) := fun _ _ _ h => nomatch h

theorem status (engine : Fin 3) (media : Byte) (sheets lastTag : Word16) (bufferFree head : Byte) : Statement (.status engine media sheets lastTag bufferFree head) := fun _ _ _ h => nomatch h

theorem sheetDone (engine : Fin 3) (tag : Word16) : Statement (.sheetDone engine tag) := fun _ _ _ h => nomatch h

theorem sheetFault (engine : Fin 3) (tag : Word16) (cause : Byte) : Statement (.sheetFault engine tag cause) := fun _ _ _ h => nomatch h

theorem silenceTimerExpiry (engine : Fin 3) : Statement (.silenceTimerExpiry engine) := fun _ _ _ h => nomatch h

theorem relinkTimerExpiry (engine : Fin 3) : Statement (.relinkTimerExpiry engine) := fun _ _ _ h => nomatch h

theorem setEngine (engine enabled mask : Byte) : Statement (.setEngine engine enabled mask) := by
  intro _ code payload h
  obtain ⟨rfl, rfl⟩ := Prod.mk.inj (Option.some.inj h)
  exact ⟨rfl,
    (3, 3), by decide, Nat.le_refl _, Nat.le_refl _⟩

theorem readEngine (engine clear : Byte) : Statement (.readEngine engine clear) := by
  intro _ code payload h
  obtain ⟨rfl, rfl⟩ := Prod.mk.inj (Option.some.inj h)
  exact ⟨rfl,
    (2, 2), by decide, Nat.le_refl _, Nat.le_refl _⟩

theorem holdEngine (engine : Byte) : Statement (.holdEngine engine) := by
  intro _ code payload h
  obtain ⟨rfl, rfl⟩ := Prod.mk.inj (Option.some.inj h)
  exact ⟨rfl,
    (1, 1), by decide, Nat.le_refl _, Nat.le_refl _⟩

theorem releaseEngine (engine : Byte) : Statement (.releaseEngine engine) := by
  intro _ code payload h
  obtain ⟨rfl, rfl⟩ := Prod.mk.inj (Option.some.inj h)
  exact ⟨rfl,
    (1, 1), by decide, Nat.le_refl _, Nat.le_refl _⟩

theorem rasterBurstComplete (channel : Fin 3) (errors : ReadErrors) : Statement (.rasterBurstComplete channel errors) := fun _ _ _ h => nomatch h

theorem pollTimerExpiry : Statement (.pollTimerExpiry) := fun _ _ _ h => nomatch h

theorem pollTransferEnd (result : BusResult) (whole fraction : Byte) : Statement (.pollTransferEnd result whole fraction) := fun _ _ _ h => nomatch h

theorem staleLimitPassed (sensor : Fin 4) : Statement (.staleLimitPassed sensor) := fun _ _ _ h => nomatch h

theorem readSensors : Statement (.readSensors) := by
  intro _ code payload h
  obtain ⟨rfl, rfl⟩ := Prod.mk.inj (Option.some.inj h)
  exact ⟨rfl,
    (0, 0), by decide, Nat.le_refl _, Nat.le_refl _⟩

theorem clearBusError : Statement (.clearBusError) := by
  intro _ code payload h
  obtain ⟨rfl, rfl⟩ := Prod.mk.inj (Option.some.inj h)
  exact ⟨rfl,
    (0, 0), by decide, Nat.le_refl _, Nat.le_refl _⟩

theorem recoverBus : Statement (.recoverBus) := by
  intro _ code payload h
  obtain ⟨rfl, rfl⟩ := Prod.mk.inj (Option.some.inj h)
  exact ⟨rfl,
    (0, 0), by decide, Nat.le_refl _, Nat.le_refl _⟩

theorem recoverBusEnd (sdaHigh : Bool) : Statement (.recoverBusEnd sdaHigh) := fun _ _ _ h => nomatch h

theorem settingsRead (address count : Word16) : Statement (.settingsRead address count) := by
  intro _ code payload h
  obtain ⟨rfl, rfl⟩ := Prod.mk.inj (Option.some.inj h)
  exact ⟨Eq.trans (b := some (.settingsRead (toWord16 (address.extractLsb' 8 8) (address.extractLsb' 0 8)) (toWord16 (count.extractLsb' 8 8) (count.extractLsb' 0 8)))) (rfl)
    (by simp only [toWord16_ofWord16]),
    (4, 4), by decide, Nat.le_refl _, Nat.le_refl _⟩

theorem settingsReadEnd (result : BusResult) (data : List Byte) : Statement (.settingsReadEnd result data) := fun _ _ _ h => nomatch h

theorem settingsWrite (address : Word16) (data : List Byte) : Statement (.settingsWrite address data) := by
  intro hl code payload h
  obtain ⟨rfl, rfl⟩ := Prod.mk.inj (Option.some.inj h)
  have hd : 1 ≤ data.length ∧ data.length ≤ 16 := by simpa [Instr.lengthSuits] using hl
  refine ⟨Eq.trans (b := some (.settingsWrite (toWord16 (address.extractLsb' 8 8) (address.extractLsb' 0 8)) data)) (Eq.trans (b := if 1 ≤ data.length ∧ data.length ≤ 16 then some (.settingsWrite (toWord16 (address.extractLsb' 8 8) (address.extractLsb' 0 8)) data) else none) rfl (if_pos hd))
    (by simp only [toWord16_ofWord16]), (3, 18), by decide, ?_, ?_⟩
  · simp [ofWord16]; omega
  · simp [ofWord16]; omega

theorem settingsWriteEnd (result : BusResult) : Statement (.settingsWriteEnd result) := fun _ _ _ h => nomatch h

theorem ackPollWindowExpiry : Statement (.ackPollWindowExpiry) := fun _ _ _ h => nomatch h

theorem optionReadEnd (result : BusResult) (option : Byte) : Statement (.optionReadEnd result option) := fun _ _ _ h => nomatch h

theorem imageReadEnd (result : BusResult) (data : List Byte) : Statement (.imageReadEnd result data) := fun _ _ _ h => nomatch h

end Laws.RequestRoundTrip

end Sys2Proof
end

