-- ==== Sys2Proof/Certificates/Slice0/Obligations.lean ====
section
/-! DEFINITION. The statements made about the part, for the provers. -/

open Sys2Proof Sys2Proof.Machine

/-! ### The queue, the clock, reset and the canonical forms -/

/-- A step takes the command at the front of the queue and runs it on the state with the queue's rest. -/
def Obligations.StepRunsTheFrontCommand : Prop :=
  ∀ (c : Instr) (rest : List Instr) (s : State),
    step { s with pending := c :: rest } = exec c { s with pending := rest }

/-- With no command waiting one millisecond passes (the model's choice, log entry 4): every timer comes one nearer to its end, and nothing
but timers and ages changes. The write of a SETTINGS WRITE comes one nearer to its stop, at which its polling window of 10 ms starts. -/
def Obligations.EmptyQueueLetsOneMillisecondPass : Prop :=
  ∀ s : State, s.pending = [] → ∃ t, step s = .next t ∧
    t.part = s.part ∧ t.link = s.link ∧ t.params = s.params ∧ t.store = { s.store with scrubTimer := t.store.scrubTimer } ∧
    t.ready = s.ready ∧ t.loader = s.loader ∧ t.pending = [] ∧ t.choices = s.choices ∧
    t.bus = { s.bus with writeLeft := t.bus.writeLeft, ackWindow := t.bus.ackWindow } ∧
    t.book = { s.book with orders := t.book.orders } ∧ t.tenders = { s.tenders with tenders := t.tenders.tenders } ∧
    t.thermal = { s.thermal with sensors := t.thermal.sensors, pollTimer := t.thermal.pollTimer } ∧
    (s.part.inReset = true → t = s) ∧
    (s.part.inReset = false →
      t.store.scrubTimer = s.store.scrubTimer.map (· - 1) ∧
      (∀ i, t.slot i = { s.slot i with debounce := (s.slot i).debounce.map (· - 1) }) ∧
      (∀ k, t.cardLink k = { s.cardLink k with
        responseWait := (s.cardLink k).responseWait.map (· - 1), blockWait := (s.cardLink k).blockWait.map (· - 1) }) ∧
      (∀ n, t.order n = (s.order n).map fun o => { o with idleDeadline := o.idleDeadline.map (· - 1) }) ∧
      (∀ i, t.line i = { s.line i with
        dsrFilter := (s.line i).dsrFilter.map (· - 1), ctsWait := (s.line i).ctsWait.map (· - 1) }) ∧
      (∀ n, t.tender n = (s.tender n).map fun r => { r with replyDeadline := r.replyDeadline.map (· - 1) }) ∧
      (∀ e, t.engine e = { s.engine e with
        relinkTimer := (s.engine e).relinkTimer.map (· - 1), presFilter := (s.engine e).presFilter.map (· - 1),
        helloTimer := (s.engine e).helloTimer.map (· - 1), silenceTimer := (s.engine e).silenceTimer.map (· - 1) }) ∧
      t.thermal.pollTimer = s.thermal.pollTimer.map (· - 1) ∧
      (s.bus.writeLeft = none → t.bus.writeLeft = none ∧ t.bus.ackWindow = s.bus.ackWindow.map (· - 1)) ∧
      (∀ n, s.bus.writeLeft = some n →
        (2 ≤ n → t.bus.writeLeft = some (n - 1) ∧ t.bus.ackWindow = s.bus.ackWindow) ∧
        (n ≤ 1 → t.bus.writeLeft = none ∧ t.bus.ackWindow = some 10)) ∧
      (∀ i, (t.sensor i).reading = (s.sensor i).reading ∧ (t.sensor i).latch = (s.sensor i).latch))

/-- Each parameter lies in the range of the parameter table (section 9.5.1). -/
def Obligations.EveryStepKeepsParametersInRange : Prop :=
  ∀ s t : State, (∀ p, p < 18 → paramAdmits p (s.params.get p) = true) → step s = .next t →
    ∀ p, p < 18 → paramAdmits p (t.params.get p) = true

/-- Every step keeps the bytes of the store in their canonical form. -/
def Obligations.EveryStepKeepsMemoryCanonical : Prop :=
  ∀ s t : State, MemorySound s → step s = .next t → MemorySound t

/-- Every step keeps the change flags a set in scan order, and the record tables ascending with each number once. Every step also keeps what
holds of the part before start-up has ended: the link hands over IDENTIFY PART alone, the store port stands idle, no sheet link is ONLINE,
only the loader uses the bus, and until its load has ended the payment lines are UNSET and no tender is held. -/
def Obligations.EveryStepKeepsFlagsAndTablesCanonical : Prop :=
  (∀ s t : State, FlagsSound s → TablesSound s → step s = .next t → FlagsSound t ∧ TablesSound t) ∧
  (∀ s t : State, AwaitsLoad s → step s = .next t → AwaitsLoad t)

/-- Every step keeps the reference count of each frame the number of lines in present orders that cite it, and its pin count the number of
raster channels that stream from it, for record tables in ascending order, as every step keeps them; and the lines of each order numbered in
rising order below its next line number. -/
def Obligations.EveryStepKeepsCountsRight : Prop :=
  ∀ s t : State, TablesSound s → CountsSound s → step s = .next t → CountsSound t

/-- Every step keeps the Exchange Queues: a tender stands in the queue of its line exactly while it waits for the line, and once, and at
most one tender is in exchange on each line; for record tables in ascending order, as every step keeps them. -/
def Obligations.EveryStepKeepsExchangeQueues : Prop :=
  ∀ s t : State, TablesSound s → ExchangesSound s → step s = .next t → ExchangesSound t

/-- Every step keeps the Ready List: a pair stands in it exactly while its order is PRINTING and copies of its line wait, once, and in the
order of admission sequences and line numbers; and it keeps the in-flight count of each line the number of sheets that belong to it, each
sheet belonging to a line of a PRINTING order; for record tables in ascending order, as every step keeps them. -/
def Obligations.EveryStepKeepsCopiesInFlight : Prop :=
  ∀ s t : State, TablesSound s → CopiesSound s → step s = .next t → CopiesSound t

/-- Every step keeps every page in exactly one place once the pools have been formed, and in none before: the Free Pool, the Spare Reserve,
the extent of one frame, the target of the migration, the Retiring Set or the Bad Set. It keeps the Space Wait List the list of the frames
in WAITING_SPACE, each with no page, every other frame that is not DAMAGED with all its pages, and the Migration Queue and the migration on
pages of READY frames. A frame keeps its pages while a host data request on it is at the store port, which is the model's reading (log entry
10). It holds for record tables in ascending order and a part that awaits its load as start-up has it, as every step keeps them. -/
def Obligations.EveryStepKeepsOnePlaceForEachPage : Prop :=
  ∀ s t : State, TablesSound s → AwaitsLoad s → PagesSound s → step s = .next t → PagesSound t

/-- Every request is read back from the frame that carries it: its code lies in the table of section 9.2, its payload length lies in the
range of the table, and the code and the payload spell exactly this request again. -/
def Obligations.RequestFramesReadBack : Prop :=
  ∀ i : Instr, Laws.RequestRoundTrip.Statement i

/-! ### The Order Link -/

/-- A request that reaches its block is worked in a state that differs from the one before in the Order Link alone: the link is WORKING on
it, the condition set and the chip select are as they were, the change flags are as they were unless a RESTART that waited has taken effect,
and where the command stands for the whole frame 0xFF is shifted out last. A request command that does not reach its block: in start-up it
is answered NOT_READY, with a payload length outside its range BAD_LENGTH, and while another request is worked it is lost and sets
LINK_OVERRUN; in RECEIVING, with CS_N high and under RESET_N nothing happens. The command of a request that is turned away answers the state
it is turned away in, after which the arbiters of some commands make what grants stand open. How a request command and its frame meet is the
model's choice (log entry 1). -/
def Obligations.RequestsReachTheirBlockOrAreTurnedAway : Prop :=
  (∀ (i : Instr) (s : State), Reaches i s →
      s.arrive i = .taken (s.atWork i) ∧ OnlyLink s (s.atWork i) ∧
      (s.atWork i).link.state = .working ∧ (s.atWork i).link.working = some i ∧ (s.atWork i).link.handed = none ∧
      (s.atWork i).link.conditions = s.link.conditions ∧ (s.atWork i).link.selected = s.link.selected ∧
      (s.atWork i).link.sdo = (if s.link.state = .working then s.link.sdo else 0xFF) ∧ (s.atWork i).link.flags = s.flagsAtWork) ∧
  (∀ (i : Instr) (s : State),
      (s.part.inReset = true → s.arrive i = .turned s) ∧
      (s.part.inReset = false → s.link.state = .receiving → s.arrive i = .turned s) ∧
      (s.part.inReset = false → s.link.selected = false → s.link.state ≠ .working ∨ s.link.handed ≠ some i →
        s.arrive i = .turned s) ∧
      (s.part.inReset = false → s.link.selected = true →
        (s.link.state = .working → s.link.handed ≠ some i → s.arrive i = .turned (s.shiftFiller.setCondition .linkOverrun)) ∧
        (s.link.state = .idle ∨ s.link.state = .answered →
          (s.part.started = false → i ≠ .identifyPart → s.arrive i = .turned (s.beginFrame.shiftFiller.respond .notReady [])) ∧
          (s.part.started = true → i.lengthSuits = false →
            s.arrive i = .turned (s.beginFrame.shiftFiller.respond .badLength []))))) ∧
  (∀ (i : Instr) (code : Byte) (payload : List Byte) (s u : State), encodeRequest i = some (code, payload) → s.arrive i = .turned u →
      exec i s = .next u ∨ exec i s = .next u.grantAll)

/-- A whole request frame whose CRC matches, whose code is in the table and whose payload length lies in its range is handed to its owning
block, and the link enters WORKING; its last byte shifts out 0xFF. In IDLE or ANSWERED the command stands for the mark too (log entry 1).
The command of a frame is the bytes of the frame, clocked one after another. A request frame that the link refuses in RECEIVING is answered
with an empty payload and changes nothing beyond the link: by the CRC first, then the request code, then start-up, then the payload length.
At a length above 600 no further byte is taken into the frame. -/
def Obligations.RequestFramesAreHandedOverOrRefused : Prop :=
  (∀ (i : Instr) (code : Byte) (payload : List Byte) (s : State),
      s.part.inReset = false → s.link.selected = true →
      (s.link.state = .idle ∨ s.link.state = .answered ∨
        (s.link.state = .receiving ∧ s.link.overlong = false ∧ s.link.buffer = [])) →
      (s.part.started = true ∨ i = .identifyPart) →
      i.lengthSuits = true → encodeRequest i = some (code, payload) →
      ∃ t, exec (.requestFrame code (BitVec.ofNat 16 payload.length) payload
          (orderLinkCrc (code :: (word2 (BitVec.ofNat 16 payload.length) ++ payload)))) s = .next t ∧
        OnlyLink s t ∧ t.link.state = .working ∧ t.link.handed = some i ∧ t.link.working = none ∧ t.link.buffer = [] ∧
        t.link.overlong = false ∧ t.link.sdo = 0xFF ∧ t.link.conditions = s.link.conditions ∧ t.link.selected = true ∧
        t.link.flags = if s.link.state = .receiving then s.link.flags else s.flagsAtWork) ∧
  (∀ (code : Byte) (length crc : Word16) (payload : List Byte) (s : State),
      s.part.inReset = false → s.link.selected = true →
      exec (.requestFrame code length payload crc) s = .next
        ((if s.link.state = .receiving then s else s.clockByte 0x5D).clockBytes
          (code :: (word2 length ++ payload ++ word2 crc)))) ∧
  (∀ (code : Byte) (payload : List Byte) (crc : Word16) (s : State),
      s.part.inReset = false → s.link.selected = true → s.link.state = .receiving → s.link.overlong = false → s.link.buffer = [] →
      (∀ length : Word16, 600 < length.toNat →
        exec (.requestFrame code length payload crc) s =
          .next { s with link := { s.link with sdo := 0xFF, overlong := true, buffer := code :: word2 length } }) ∧
      ∀ length : Word16, length.toNat = payload.length → payload.length ≤ 600 →
        (crc ≠ orderLinkCrc (code :: (word2 length ++ payload)) →
          exec (.requestFrame code length payload crc) s = .next (s.shiftFiller.respond .badFrame [])) ∧
        (crc = orderLinkCrc (code :: (word2 length ++ payload)) →
          (requestLengths code = none →
            exec (.requestFrame code length payload crc) s = .next (s.shiftFiller.respond .unknownRequest [])) ∧
          (∀ range, requestLengths code = some range →
            (s.part.started = false → code ≠ 0x01 →
              exec (.requestFrame code length payload crc) s = .next (s.shiftFiller.respond .notReady [])) ∧
            ((s.part.started = true ∨ code = 0x01) → (payload.length < range.1 ∨ range.2 < payload.length) →
              exec (.requestFrame code length payload crc) s = .next (s.shiftFiller.respond .badLength [])))))

/-- One byte is clocked in. While RESET_N is asserted or CS_N is high it is not taken and SDO is high-impedance. In IDLE or ANSWERED 0x5D
begins a request frame and a held response is discarded; any other byte is filler. In RECEIVING every byte is taken into the frame until its
payload length reads above 600, and the byte that completes the frame has it judged. In WORKING a byte other than 0xFF sets LINK_OVERRUN,
and with it the PART flag, and changes nothing else. With each byte SDO shifts out the next byte of the response in ANSWERED, 0xFF after its
last, and 0xFF in the other link states. Each falling edge of CS_N returns the output to the response's first byte. A rising edge in
RECEIVING ends the frame left incomplete, which is answered BAD_FRAME; one in ANSWERED lets a RESTART whose response has been shifted out
whole in this transaction take effect; any other rising edge, one in ANSWERED with a RESTART whose response is not shifted out whole among
them, closes the transaction and nothing else. With CS_N high SDO is high-impedance. An edge to the level CS_N has already is none. -/
def Obligations.BytesAndChipSelectMoveTheLink : Prop :=
  (∀ (i : Instr) (b : Byte) (s : State), Spells i b →
    (s.part.inReset = true ∨ s.link.selected = false → exec i s = .next s ∧ s.sdoPin = none) ∧
    (s.part.inReset = false → s.link.selected = true →
      s.sdoPin = some s.link.sdo ∧
      (s.link.state = .idle ∨ s.link.state = .answered → b = 0x5D →
        ∃ t, exec i s = .next t ∧ OnlyLink s t ∧ t.link.state = .receiving ∧ t.link.response = none ∧
          t.link.overlong = false ∧ t.link.buffer = [] ∧ t.link.conditions = s.link.conditions ∧ t.link.flags = s.flagsAtWork ∧
          t.link.sdo = (if s.link.state = .answered then s.link.responseBytes.getD s.link.shifted 0xFF else 0xFF)) ∧
      (s.link.state = .idle → b ≠ 0x5D → exec i s = .next { s with link := { s.link with sdo := 0xFF } }) ∧
      (∀ r, s.link.state = .answered → s.link.response = some r → b ≠ 0x5D →
        exec i s = .next { s with link := { s.link with
          sdo := r.bytes.getD s.link.shifted 0xFF
          shifted := if s.link.shifted < r.bytes.length then s.link.shifted + 1 else s.link.shifted } }) ∧
      (s.link.state = .receiving →
        (s.link.overlong = true → exec i s = .next { s with link := { s.link with sdo := 0xFF } }) ∧
        (s.link.overlong = false →
          (frameLength (s.link.buffer ++ [b]) = none →
            exec i s = .next { s with link := { s.link with sdo := 0xFF, buffer := s.link.buffer ++ [b] } }) ∧
          (∀ n, frameLength (s.link.buffer ++ [b]) = some n →
            (600 < n →
              exec i s = .next { s with link := { s.link with sdo := 0xFF, overlong := true, buffer := s.link.buffer ++ [b] } }) ∧
            (n ≤ 600 → (s.link.buffer ++ [b]).length ≠ n + 5 →
              exec i s = .next { s with link := { s.link with sdo := 0xFF, buffer := s.link.buffer ++ [b] } }) ∧
            (n ≤ 600 → (s.link.buffer ++ [b]).length = n + 5 →
              exec i s = .next (s.shiftFiller.judgeFrame (s.link.buffer ++ [b])))))) ∧
      (s.link.state = .working →
        (b = 0xFF → exec i s = .next { s with link := { s.link with sdo := 0xFF } }) ∧
        (b ≠ 0xFF →
          ∃ t, exec i s = .next t ∧ OnlyLink s t ∧
            t.link = { s.link with sdo := 0xFF, conditions := t.link.conditions, flags := t.link.flags } ∧
            (∀ c, t.hasCondition c = (decide (c = .linkOverrun) || s.hasCondition c)) ∧
            (∀ k, k ∈ t.link.flags ↔ k = partFlag ∨ k ∈ s.link.flags))))) ∧
  (∀ s : State,
    (s.link.selected = false →
      exec .csNFall s = .next { s with link := { s.link with selected := true, shifted := 0 } } ∧ exec .csNRise s = .next s ∧
      s.sdoPin = none) ∧
    (s.link.selected = true → exec .csNFall s = .next s) ∧
    (s.part.inReset = false → s.link.selected = true → s.link.state = .receiving →
      ∃ t, exec .csNRise s = .next t ∧ OnlyLink s t ∧ Answered .badFrame [] t ∧ t.link.selected = false ∧ t.link.buffer = [] ∧
        t.link.overlong = false ∧ t.link.flags = s.link.flags ∧ t.link.conditions = s.link.conditions ∧
        t.link.restartDue = s.link.restartDue) ∧
    (∀ r, s.part.inReset = false → s.link.selected = true → s.link.state = .answered → s.link.response = some r →
      s.link.restartDue = true →
      (r.bytes.length ≤ s.link.shifted →
        ∃ t, exec .csNRise s = .next t ∧ OnlyLink s t ∧ t.link.state = .idle ∧ t.link.response = none ∧ t.link.selected = false ∧
          t.link.flags = allFlags ∧ t.link.restartDue = false ∧ t.link.conditions = s.link.conditions) ∧
      (s.link.shifted < r.bytes.length →
        exec .csNRise s = .next { s with link := { s.link with selected := false } })) ∧
    (s.link.selected = true → (s.part.inReset = true ∨ s.link.state = .idle ∨ s.link.state = .working ∨
        (s.link.state = .answered ∧ s.link.restartDue = false)) →
      exec .csNRise s = .next { s with link := { s.link with selected := false } }))

/-- READ CONDITIONS reports the condition set as it stood and then clears the conditions the mask names; a clear mask above 0x03FF is
refused. TAKE CHANGES reports up to 32 set flags in scan order, each as its kind code and number, and clears exactly those; the more byte
says whether flags remain. The places of the scan order are the kinds and numbers of section 9.3 in the order of the scan: the PART flag,
slots 0 to 7, lines 0 to 3, engines 0 to 2, frames 0 to 1023 and orders 0 to 63. That a TAKE CHANGES entry carries its number in 2 bytes is
the model's choice (log entry 18). -/
def Obligations.ConditionsAndChangesAreReportedAndCleared : Prop :=
  (∀ (mask : Word16) (s : State), Reaches (.readConditions mask) s →
      (0x03FF < mask.toNat → OnlyAnswers (.readConditions mask) s .badArgument []) ∧
      (mask.toNat ≤ 0x03FF →
        ∃ t, exec (.readConditions mask) s = .next t ∧ OnlyLink s t ∧
          Answered .ok [BitVec.ofNat 8 (s.link.conditions.toNat / 256), BitVec.ofNat 8 s.link.conditions.toNat] t ∧
          (∀ c : Condition, t.hasCondition c = (s.hasCondition c && !mask.getLsbD c.bit)) ∧ t.link.flags = s.flagsAtWork)) ∧
  (∀ s : State, Reaches .takeChanges s →
      ∃ t, exec .takeChanges s = .next t ∧ OnlyLink s t ∧ t.link.conditions = s.link.conditions ∧
        t.link.flags = s.flagsAtWork.drop 32 ∧
        Answered .ok
          (BitVec.ofNat 8 (min 32 s.flagsAtWork.length) ::
            ((s.flagsAtWork.take 32).flatMap fun k =>
              [BitVec.ofNat 8 (flagName k).1, BitVec.ofNat 8 ((flagName k).2 / 256), BitVec.ofNat 8 (flagName k).2]) ++
            [if 32 < s.flagsAtWork.length then 1 else 0]) t) ∧
  (flagName partFlag = (0, 0) ∧ (∀ i, i < 8 → flagName (slotFlag i) = (1, i)) ∧ (∀ i, i < 4 → flagName (lineFlag i) = (2, i)) ∧
    (∀ i, i < 3 → flagName (engineFlag i) = (3, i)) ∧ (∀ n, n < 1024 → flagName (frameFlag n) = (4, n)) ∧
    (∀ n, n < 64 → flagName (orderFlag n) = (5, n)) ∧
    (∀ k, k ∈ allFlags ↔ k < 1104) ∧
    ∀ j k, j < k → k < 1104 → (flagName j).1 < (flagName k).1 ∨ ((flagName j).1 = (flagName k).1 ∧ (flagName j).2 < (flagName k).2))

/-- READ PARAMETER answers BAD_ARGUMENT for a parameter above 17, and otherwise OK with the value held, in 4 bytes. SET PARAMETER refuses a
parameter above 17 and a value outside its range, does nothing for the value held, and otherwise stores the value and sets the PART flag; no
other parameter changes, and the owning block acts at once: a raised spare target refills the reserve and a lowered one returns the excess,
the low mark judges STORE_LOW, the scrub interval moves the patrol, the code seed makes the last code absent, the present mask resets the
sensors that leave or join, evaluates the holds and moves the poller, and the stale limit evaluates the holds; every other parameter is
stored and nothing more. That an interval of 0 drops a search that is due is the model's choice (log entry 24). -/
def Obligations.ParametersAreReadAndStored : Prop :=
  (∀ (p : Byte) (s : State), Reaches (.readParameter p) s →
      (17 < p.toNat → OnlyAnswers (.readParameter p) s .badArgument []) ∧
      (p.toNat ≤ 17 →
        OnlyAnswers (.readParameter p) s .ok
          [BitVec.ofNat 8 (s.params.get p.toNat / 16777216), BitVec.ofNat 8 (s.params.get p.toNat / 65536),
            BitVec.ofNat 8 (s.params.get p.toNat / 256), BitVec.ofNat 8 (s.params.get p.toNat)])) ∧
  (∀ (p : Byte) (v : Word32) (s : State), Reaches (.setParameter p v) s →
      (17 < p.toNat ∨ (∃ lo hi, paramRange p.toNat = some (lo, hi) ∧ (v.toNat < lo ∨ hi < v.toNat)) →
        exec (.setParameter p v) s = .next ((s.atWork (.setParameter p v)).respond .badArgument []).grantAll) ∧
      (∀ lo hi, paramRange p.toNat = some (lo, hi) → lo ≤ v.toNat → v.toNat ≤ hi →
        (v.toNat = s.params.get p.toNat →
          exec (.setParameter p v) s = .next ((s.atWork (.setParameter p v)).respond .ok []).grantAll) ∧
        (v.toNat ≠ s.params.get p.toNat →
          ∃ u t : State, exec (.setParameter p v) s = .next t ∧ t = u.grantAll ∧ Answered .ok [] t ∧ partFlag ∈ t.link.flags ∧
            (∀ q, q < 18 → t.params.get q = if q = p.toNat then v.toNat else s.params.get q) ∧
            t.store.mem = s.store.mem ∧ t.part = s.part ∧ t.loader = s.loader ∧ t.pending = s.pending ∧
            Finishes (.setParameter p v) .ok [] s u ∧ u.params = t.params ∧ ParameterActs p.toNat v.toNat s u)))

/-- IDENTIFY PART answers in every state of the part with 16 bytes: HAWLIN HK330, the design revision 1, the start-up state and the largest
payload length 600; it changes nothing. RESTART answers OK with an empty payload at once and takes effect later: when the response has been
shifted out whole and CS_N then rises, or when the next request frame begins, whichever is first. It then sets every change flag, drives
ATTN_N, leaves the link IDLE and without a response or in RECEIVING, and keeps the conditions; nothing outside the link changes. -/
def Obligations.IdentifyPartAndRestartAnswer : Prop :=
  (∀ s : State, Reaches .identifyPart s →
      OnlyAnswers .identifyPart s .ok
        ([0x48, 0x41, 0x57, 0x4C, 0x49, 0x4E, 0x20, 0x48, 0x4B, 0x33, 0x33, 0x30, 1] ++
          [if s.part.started then 1 else 0] ++ [0x02, 0x58])) ∧
  (∀ s : State, Reaches .restart s →
      ∃ t, exec .restart s = .next t ∧ OnlyLink s t ∧ Answered .ok [] t ∧ t.link.restartDue = true ∧
        t.link.conditions = s.link.conditions ∧ t.link.flags = s.flagsAtWork) ∧
  (∀ (r : Response) (s : State), s.part.inReset = false → s.link.selected = true → s.link.state = .answered →
      s.link.response = some r → s.link.restartDue = true →
      (∃ t, exec .requestFrameStart s = .next t ∧ OnlyLink s t ∧ t.link.flags = allFlags ∧ t.link.restartDue = false ∧
        t.link.conditions = s.link.conditions ∧ t.link.state = .receiving ∧ t.link.response = none ∧ t.attention = true) ∧
      (s.link.shifted < r.bytes.length →
        exec .csNRise s = .next { s with link := { s.link with selected := false } }) ∧
      (r.bytes.length ≤ s.link.shifted →
        ∃ t, exec .csNRise s = .next t ∧ OnlyLink s t ∧ t.link.flags = allFlags ∧ t.link.restartDue = false ∧
          t.link.conditions = s.link.conditions ∧ t.link.state = .idle ∧ t.link.response = none ∧ t.attention = true))

/-! ### Power-on, start-up and the pin reset -/

/-- Right after power-on every record, table, counter and parameter holds the value the manual gives it: empty tables, an empty condition
set and no change flag, products disabled, lines UNSET, engines ABSENT and enabled, the poller IDLE with no stop cause and no readings, both
pointers of the store port at their last member and its starvation counter 0, every counter of an engine 0, the parameters at their
defaults, and every byte of the store reads 0. The model's choices among these values are: that the store reads 0 before store
initialisation (log entry 8); the input pins, the pools not yet formed, the patrol IDLE, the byte on SDO, the token of a card link and the
fields of a channel that serves no sheet (log entry 20); the receive state of an ABSENT link (log entry 21); no command waiting (log entry
22); and the fields the model keeps of its own (log entries 5, 6, 11, 26 and 46). The machine right after reset has every canonical form and
every parameter in its range, it awaits its load, and the counts, the queues, the copies and the pages stand in it as every step keeps them.
-/
def Obligations.ResetHoldsTheManualsValues : Prop :=
  State.reset.part = ⟨false, false, false⟩ ∧
  (State.reset.link = {
      state := .idle, selected := false, overlong := false, buffer := [], handed := none, working := none, response := none
      shifted := 0, sdo := 0xFF, restartDue := false, flags := [], conditions := 0 } ∧
    ∀ c, State.reset.hasCondition c = false) ∧
  (List.range 18).map State.reset.params.get =
    [64, 256, 4, 50, 0, 600, 2, 100000, 180, 15, 120, 15, 70, 85, 50, 5, 5000, 1000] ∧
  ((∀ a, readByte State.reset.store.mem a = 0) ∧ (∀ p, State.reset.attr p = ⟨0, false, 0⟩) ∧
    State.reset.store = {
      mem := [], frames := [], attrs := [], freePool := [], spares := [], bad := [], retiringPages := [], waitList := []
      migrationQueue := [], migration := none, notices := [], scrubCursor := 0, passCount := 0, patrol := .idle, scrubTimer := none
      scrubStep := none, scrubWaiting := none, searchDue := false
      port := { busy := none, waiting := [], rasterLast := 2, linkLast := 3, starvation := 0 } }) ∧
  (∀ i, State.reset.slot i = {
      state := .empty, session := 0, capacity := none, identity := none, failedIdentifies := 0, failedImports := 0
      lastError := none, importQueue := [], progress := none, detect := false, power := false, debounce := none }) ∧
  (∀ k, State.reset.cardLink k = {
      work := .free, token := [], responseWait := none, blockWait := none, buffersHeld := 0, pointerOdd := true, gained := none }) ∧
  (State.reset.book.orders = [] ∧ State.reset.book.lastCode = none ∧ State.reset.book.admission = 0 ∧
    ∀ p : Fin 16, State.reset.book.prices[p] = ⟨false, 1, 0⟩) ∧
  (∀ i, State.reset.line i = {
      mode := none, enable := false, state := .unset, dsr := false, parityError := false, framingError := false
      overrunError := false, discarded := 0, unexpected := 0, lastDecline := none, txQueue := [], txSent := 0, txChar := .idle
      assembly := .hunting, handOff := none, rxFifo := [], overrunMark := false, dsrInput := false, dsrFilter := none
      cts := false, ctsWait := none, lossCause := none }) ∧
  (State.reset.tenders.tenders = [] ∧ ∀ i : Fin 4, State.reset.tenders.queues[i] = [] ∧ State.reset.tenders.inService[i] = false) ∧
  (∀ e, State.reset.engine e = {
      link := .absent, lastLoss := none, enabled := true, stationMask := 15, media := 0, sheetsRemaining := 0, head := none
      bufferFree := 0, credit := 0, holds := ⟨false, false, false, false⟩, nextTag := 1, lastCompleted := none, sheets := []
      relinkTimer := none, receiveFaults := 0, strayOutcomes := 0, protocolErrors := 0, expressRun := 0, expressPointer := 3
      standardPointer := 3, presInput := false, present := false, presFilter := none, helloTimer := none, silenceTimer := none
      control := [], sheetPath := none, tx := .still, rx := .off, rxBuffer := [], taken := none
      channel := {
        phase := .idle, sheet := none, frame := 0, length := 0, pageIndex := 0, readingPage := none, bytesRead := 0
        bytesHanded := 0, buffers := [], crc := 0xFFFFFFFF, endDue := false, sheetWaits := false } }) ∧
  (∀ i, State.reset.sensor i = ⟨none, none, false⟩) ∧
  (State.reset.thermal.cursor = 0 ∧ State.reset.thermal.state = .idle ∧ State.reset.thermal.stopCause = none ∧
    State.reset.thermal.pollTimer = none ∧ State.reset.bus =
      { current := some .loadOption, claims := [], lastFault := none, writeLeft := none, ackWindow := none }) ∧
  State.reset.loader = { state := .readingOption, option := none, outcome := none } ∧
  State.reset.ready = [] ∧ State.reset.pending = [] ∧
  (MemorySound State.reset ∧ FlagsSound State.reset ∧ TablesSound State.reset ∧ AwaitsLoad State.reset ∧
    ∀ p, p < 18 → paramAdmits p (State.reset.params.get p) = true) ∧
  CountsSound State.reset ∧ ExchangesSound State.reset ∧ CopiesSound State.reset ∧ PagesSound State.reset

/-- POWER_ON returns every block to its power-on state. The levels at the input pins stay, and so does RESET_N: while it is asserted no
transfer is in progress, and otherwise the loader reads the option byte. That the inputs keep their levels is the model's reading (log entry
31), and that the loader, with no transfer claimed while RESET_N stays asserted, holds READING_OPTION is its choice (log entry 41). -/
def Obligations.PowerOnRestoresEveryBlock : Prop :=
  ∀ s : State, ∃ t, exec .powerOn s = .next t ∧
    t.part = ⟨s.part.inReset, false, false⟩ ∧ t.link = { State.reset.link with selected := s.link.selected } ∧
    t.params = State.reset.params ∧ t.store = State.reset.store ∧ t.cards.links = State.reset.cards.links ∧
    (∀ i, t.slot i = { State.reset.slot i with detect := (s.slot i).detect }) ∧
    t.book = State.reset.book ∧ t.tenders = State.reset.tenders ∧ t.ready = [] ∧
    (∀ i, t.line i = { State.reset.line i with dsrInput := (s.line i).dsrInput, cts := (s.line i).cts }) ∧
    (∀ e, t.engine e = { State.reset.engine e with presInput := (s.engine e).presInput }) ∧
    t.thermal = State.reset.thermal ∧ t.loader = State.reset.loader ∧ t.pending = s.pending ∧
    t.bus.claims = [] ∧ t.bus.lastFault = none ∧ t.bus.current = (if s.part.inReset then none else some .loadOption)

/-- When store initialisation completes before the load is done only that is noted. When it completes last start-up ends: STARTED is set,
the pools are formed with the spare target in force and STORE_LOW is judged, the patrol starts, slots with a card enter SETTLING, present
engines enter HUNTING, the hold evaluation holds every engine that a stale sensor watches, and polling starts. -/
def Obligations.StoreInitCompleteEndsStartUp : Prop :=
  ∀ s : State, s.part.inReset = false → s.part.started = false → s.part.initDone = false →
    (s.loader.state ≠ .done → exec .storeInitComplete s = .next { s with part := { s.part with initDone := true } }) ∧
    (s.loader.state = .done → ∃ t, exec .storeInitComplete s = .next t ∧ StartUpEnds s t)

/-- The transfer of the option byte ends: 0x01 or 0x02 sends the loader to the rest of the image, any other value ends the load asking for
nothing, and a failed transfer ends it with NO_SETTINGS and the last bus fault, a STUCK one with BUS_STUCK and a stopped poller too. Where
store initialisation has completed the end of the load ends start-up. -/
def Obligations.OptionReadEndJudgesTheOptionByte : Prop :=
  ∀ (b : Byte) (s : State), s.part.inReset = false → s.part.started = false → s.bus.current = some .loadOption → s.bus.claims = [] →
    (b = 0x01 ∨ b = 0x02 →
      exec (.optionReadEnd .done b) s = .next { s with
        loader := { state := .readingImage, option := some b, outcome := none }
        bus := { s.bus with current := some .loadImage, writeLeft := none, ackWindow := none } }) ∧
    (b ≠ 0x01 → b ≠ 0x02 →
      LoadEnds (.optionReadEnd .done b) s { s with
        loader := { state := .done, option := none, outcome := some .notAsked }
        bus := { s.bus with current := none, writeLeft := none, ackWindow := none } }) ∧
    (∃ u, LoadEnds (.optionReadEnd .noAck b) s u ∧ Quiet s u ∧ partFlag ∈ u.link.flags ∧
      (∀ c, u.hasCondition c = (s.hasCondition c || decide (c = .noSettings))) ∧
      u = { s with
        link := u.link
        loader := { state := .done, option := none, outcome := some .noAnswer }
        bus := { s.bus with current := none, writeLeft := none, ackWindow := none, lastFault := some (.noAck 0x56) } }) ∧
    (∃ u, LoadEnds (.optionReadEnd .stuck b) s u ∧ Quiet s u ∧ partFlag ∈ u.link.flags ∧
      (∀ c, u.hasCondition c = (s.hasCondition c || decide (c = .noSettings) || decide (c = .busStuck))) ∧
      u = { s with
        link := u.link
        loader := { state := .done, option := none, outcome := some .noAnswer }
        bus := { s.bus with current := none, writeLeft := none, ackWindow := none, lastFault := some .stuck }
        thermal := { s.thermal with state := .stopped, stopCause := some .stuck, pollTimer := none } })

/-- The transfer of the image ends: an image that sums to 0 and holds only admissible values is applied whole, every parameter at its value,
and the lines, which stand in DOWN, the engines and, in a long load, the prices as their entries say; any other image is refused whole with
SETTINGS_BAD; a transfer that fails ends the load with NO_SETTINGS and the last bus fault, a STUCK one with BUS_STUCK and a stopped poller
too. Where store initialisation has completed the end of the load ends start-up. The state awaits its load, as every state in start-up does:
its lines are UNSET and it holds no tender. -/
def Obligations.ImageReadEndAppliesOrRefusesTheImage : Prop :=
  ∀ (option : Byte) (data : List Byte) (s : State), AwaitsLoad s →
    s.part.inReset = false → s.part.started = false →
    s.loader.option = some option → s.bus.current = some .loadImage → s.bus.claims = [] →
    data.length = (if option = 0x02 then 143 else 79) →
    ((sumGood (option :: data) && rangesGood (decide (option = 0x02)) (option :: data)) = true →
      ∃ u, LoadEnds (.imageReadEnd .done data) s u ∧ Quiet s u ∧ u.part = s.part ∧
        u.loader = { state := .done, option := none, outcome := some (if option = 0x02 then .loadedLong else .loadedShort) } ∧
        (∀ c, u.hasCondition c = s.hasCondition c) ∧
        (∀ p, p < 18 → u.params.get p = imageParam (option :: data) p) ∧
        (∀ i : Fin 4, imageByte (option :: data) (0x010 + 2 * i.val) / 128 = 1 →
          u.line i = { s.line i with
            mode := some (entryMode (imageByte (option :: data) (0x010 + 2 * i.val)) (imageByte (option :: data) (0x011 + 2 * i.val)))
            enable := decide (imageByte (option :: data) (0x010 + 2 * i.val) / 64 % 2 = 1)
            state := .down
            dsrFilter := if (s.line i).dsrInput then some 10 else none } ∧
          lineFlag i ∈ u.link.flags) ∧
        (∀ i : Fin 4, imageByte (option :: data) (0x010 + 2 * i.val) / 128 ≠ 1 → u.line i = s.line i) ∧
        u.tenders = s.tenders ∧ u.ready = s.ready ∧ u.book = { s.book with prices := u.book.prices } ∧
        (∀ e : Fin 3, u.engine e = { s.engine e with
          enabled := decide (imageByte (option :: data) (0x018 + e.val) / 16 % 2 = 1)
          stationMask := BitVec.ofNat 4 (imageByte (option :: data) (0x018 + e.val)) }) ∧
        (∀ p : Fin 16, u.book.prices[p] = if option = 0x02 then priceOfImage (option :: data) p else s.book.prices[p]) ∧
        u.store = s.store ∧ u.cards = s.cards ∧ u.thermal = s.thermal ∧ u.pending = s.pending ∧
        u.bus = { s.bus with current := none, writeLeft := none, ackWindow := none }) ∧
    ((sumGood (option :: data) && rangesGood (decide (option = 0x02)) (option :: data)) = false →
      ∃ u, LoadEnds (.imageReadEnd .done data) s u ∧ Quiet s u ∧ partFlag ∈ u.link.flags ∧
        (∀ c, u.hasCondition c = (s.hasCondition c || decide (c = .settingsBad))) ∧
        u = { s with
          link := u.link
          loader := { state := .done, option := none, outcome := some .badImage }
          bus := { s.bus with current := none, writeLeft := none, ackWindow := none } }) ∧
    (∀ bytes,
      (∃ u, LoadEnds (.imageReadEnd .noAck bytes) s u ∧ Quiet s u ∧ partFlag ∈ u.link.flags ∧
        (∀ c, u.hasCondition c = (s.hasCondition c || decide (c = .noSettings))) ∧
        u = { s with
          link := u.link
          loader := { state := .done, option := none, outcome := some .noAnswer }
          bus := { s.bus with current := none, writeLeft := none, ackWindow := none, lastFault := some (.noAck 0x56) } }) ∧
      (∃ u, LoadEnds (.imageReadEnd .stuck bytes) s u ∧ Quiet s u ∧ partFlag ∈ u.link.flags ∧
        (∀ c, u.hasCondition c = (s.hasCondition c || decide (c = .noSettings) || decide (c = .busStuck))) ∧
        u = { s with
          link := u.link
          loader := { state := .done, option := none, outcome := some .noAnswer }
          bus := { s.bus with current := none, writeLeft := none, ackWindow := none, lastFault := some .stuck }
          thermal := { s.thermal with state := .stopped, stopCause := some .stuck, pollTimer := none } }))

/-- RESET_N asserted after start-up: the link is IDLE with nothing received, worked or held, and its flags and conditions are not lost; the
parameters, the line modes and enables, the price table and the session numbers are kept; cards lose power, engines are ABSENT, lines stand
in DOWN, transfers are abandoned and readings are gone; a store access in progress comes to the end of its current 8-byte group, so that a
write has stored a beginning of its whole groups and no other byte of the store changes; every frame in WAITING_SPACE, QUEUED or FILLING is
DAMAGED by RESET without pages, or gone with its release pending, though a host frame that was granted its pages as the migration's target
was handed back or an access ended stays OPEN; no page waits to migrate, and the port's pointers and counter are as power-on sets them; with
the record tables ascending, a host frame that is OPEN or READY stays as it is, and an OPEN order's idle deadline starts afresh. Each tender
in exchange is placed at the head of its Exchange Queue as the table of section 5.7 gives, or DECLINED as WITHDRAWN, every view is
OUT_OF_SERVICE, and with no sheet STREAMING every other tender stays as it is. How many groups that is stays open (log entry 42). Before
start-up has ended start-up is abandoned. RESET_N released after a pin reset of a part that had started: every change flag and PIN_RESET are
set, slots with a card enter SETTLING and present engines HUNTING, the holds are evaluated and polling starts. Released before start-up has
ended it begins start-up, and PIN_RESET is not set. The order of the blocks is the model's reading (log entry 19), and so are that no next
migration is tried (log entry 38), that a host frame which another's pages make OPEN meanwhile is damaged all the same (log entry 39), and
that lines stand in DOWN (log entry 43), engines ABSENT (log entry 45) and the poller IDLE (log entry 40) before the release. -/
def Obligations.PinResetResolvesAndItsReleaseReports : Prop :=
  (∀ s : State, s.part.inReset = false →
      (s.part.started = false →
        ∃ t, exec .pinReset s = .next t ∧ t.part = ⟨true, false, false⟩ ∧ t.params = State.reset.params ∧
          t.store = State.reset.store ∧ t.bus.current = none ∧ (∀ c, t.hasCondition c = false) ∧ t.link.flags = [] ∧
          t.pending = s.pending) ∧
      (s.part.started = true →
        ∃ t, exec .pinReset s = .next t ∧ t.part = { s.part with inReset := true } ∧
          t.link = { s.link.pinReset with flags := t.link.flags, conditions := t.link.conditions } ∧
          t.link.state = .idle ∧ t.link.response = none ∧ t.link.sdo = 0xFF ∧
          (∀ k, k ∈ s.link.flags → k ∈ t.link.flags) ∧ (∀ c, s.hasCondition c = true → t.hasCondition c = true) ∧
          t.params = s.params ∧ t.loader = s.loader ∧ t.pending = s.pending ∧
          t.book.prices = s.book.prices ∧
          (s.store.port.busy = none ∨ (∃ p, s.store.port.busy = some (.scrub p)) ∨
            (∃ e p x n, s.store.port.busy = some (.raster e p x n)) ∨ (∃ n x k, s.store.port.busy = some (.hostRead n x k)) →
            t.store.mem = s.store.mem) ∧
          (∀ n f data, s.store.port.busy = some (.hostWrite n data) → s.frame n = some f →
            ∃ k, 1 ≤ k ∧ t.store.mem = writeFrameBytes s.store.mem f.extent (f.fill - f.heldBytes.length)
              (((f.heldBytes ++ data).take ((f.heldBytes ++ data).length / 8 * 8)).take (8 * k))) ∧
          (∀ n f, s.store.port.busy = some (.hostSeal n) → s.frame n = some f →
            t.store.mem = writeFrameBytes s.store.mem f.extent (f.fill - f.heldBytes.length)
              ((f.heldBytes ++ List.replicate (8 - f.heldBytes.length) 0).take 8)) ∧
          (∀ k n f index data void, s.store.port.busy = some (.block k n index data void) → s.frame n = some f →
            ∃ j, 1 ≤ j ∧ t.store.mem = writeFrameBytes s.store.mem f.extent (index * 512) (data.take (8 * j))) ∧
          (∀ (page target : Page) (x : Nat), s.store.port.busy = some (.migration page target x) →
            ∃ k, k ≤ 4096 ∧ t.store.mem =
              writeBytes s.store.mem (target.val * 65536 + x) (readBytes s.store.mem (page.val * 65536 + x) k)) ∧
          (TablesSound s → ∀ n f, s.frame n = some f →
            f.state = .waitingSpace ∨ f.state = .queued ∨ f.state = .filling →
            f.origin ≠ .host ∨ (s.store.port.busy = none ∧ s.store.migration = none) →
            (t.frame n = none ∧ f.releasePending = true) ∨
              ∃ q, t.frame n = some q ∧ q.state = .damaged ∧ q.cause = some .reset ∧ q.extent = [] ∧ q.pins = 0) ∧
          (TablesSound s → s.store.waitList.Nodup → (∀ n ∈ s.store.waitList, ∃ f, s.frame n = some f ∧ f.state = .waitingSpace) →
            t.store.waitList = []) ∧
          t.store.migrationQueue = [] ∧ t.store.migration = none ∧
          t.store.retiringPages = [] ∧ t.store.port = ⟨none, [], 2, 3, 0⟩ ∧
          (TablesSound s → ∀ n o, s.order n = some o → o.state = .open → t.order n = some { o with
            idleDeadline := if s.params.idleLimit = 0 then none else some (s.params.idleLimit * 1000) }) ∧
          (s.store.port.busy = none → TablesSound s → ∀ n f, s.frame n = some f → n ∉ s.store.waitList →
            f.state = .open ∨ f.state = .ready → f.releasePending = false → f.retiring = false →
            ∃ q, t.frame n = some q ∧ q = { f with references := q.references, pins := q.pins }) ∧
          (∀ i, (t.slot i).state = .empty ∧ (t.slot i).power = false ∧ (t.slot i).importQueue = [] ∧
            (t.slot i).session = (s.slot i).session ∧ (t.slot i).lastError = (s.slot i).lastError ∧
            (t.slot i).capacity = none) ∧
          (∀ k, t.cardLink k = State.reset.cardLink k) ∧
          (∀ i, (t.line i).mode = (s.line i).mode ∧ (t.line i).enable = (s.line i).enable ∧
            (t.line i).state = (if (s.line i).mode.isSome then .down else .unset) ∧ (t.line i).txQueue = [] ∧
            (t.line i).rxFifo = []) ∧
          (∀ i : Fin 4, t.tenders.inService[i] = false) ∧
          (Ascending s.tenders.tenders → ∀ i : Fin 4,
            (∀ k r, SoleExchange i k r s →
              (∀ q, r.placement = some q →
                t.tender k = some { q with exchange := .waitingLine, phase := none, replyDeadline := none } ∧
                k :: s.exchangeQueue i <+: t.exchangeQueue i ∧
                ((∀ e, (s.engine e).streaming = none) → t.exchangeQueue i = k :: s.exchangeQueue i)) ∧
              (r.placement = none →
                t.tender k = none ∧ (s.exchangeQueue i).filter (fun j => j ≠ k) <+: t.exchangeQueue i ∧
                ((∀ e, (s.engine e).streaming = none) → t.exchangeQueue i = (s.exchangeQueue i).filter (fun j => j ≠ k)) ∧
                ∀ o, s.order r.order = some o → o.state = .locked ∨ o.state = .settling →
                  t.order r.order = some (o.afterDecline .withdrawn s))) ∧
            (NoExchange i s → s.exchangeQueue i <+: t.exchangeQueue i ∧
              ((∀ e, (s.engine e).streaming = none) → t.exchangeQueue i = s.exchangeQueue i))) ∧
          (Ascending s.tenders.tenders → (∀ e, (s.engine e).streaming = none) →
            ∀ k r, s.tender k = some r → r.exchange ≠ .inExchange → t.tender k = some r) ∧
          (∀ e, (t.engine e).link = .absent ∧ (t.engine e).enabled = (s.engine e).enabled ∧
            (t.engine e).stationMask = (s.engine e).stationMask ∧
            (t.engine e).lastLoss = (if (s.engine e).link = .online then some .reset else (s.engine e).lastLoss)) ∧
          (∀ i, t.sensor i = ⟨none, none, false⟩) ∧ t.thermal.state = .idle ∧ t.bus = ⟨none, [], none, none, none⟩)) ∧
  (∀ s : State, s.part.inReset = true →
      (s.part.started = true →
        ∃ t, exec .pinResetRelease s = .next t ∧ t.part = { s.part with inReset := false } ∧ (∀ k, k ∈ t.link.flags ↔ k < 1104) ∧
          (∀ c, t.hasCondition c = (s.hasCondition c || decide (c = .pinReset))) ∧
          t.link = { s.link with flags := t.link.flags, conditions := t.link.conditions } ∧
          (∀ i, t.slot i = if (s.slot i).detect = true ∧ (s.slot i).state = .empty then
            { s.slot i with state := .settling, debounce := some 50 } else s.slot i) ∧
          (∀ e, (t.engine e).link = if (s.engine e).presInput then .hunting else .absent) ∧
          HoldsEvaluated s t ∧
          (s.thermal.state = .stopped ∨ s.params.presentMask = 0 → t.thermal = s.thermal ∧ t.bus = s.bus) ∧
          (∀ i, s.thermal.state ≠ .stopped → s.firstPresent s.thermal.cursor = some i → s.params.presentMask ≠ 0 →
            s.bus.current = none → s.bus.claims = [] →
            t.thermal = { s.thermal with state := .running, stopCause := none, cursor := (s.firstPresent (i + 1)).getD i } ∧
            t.bus = { s.bus with current := some (.poll i false), writeLeft := none, ackWindow := none }) ∧
          (∀ i, t.line i = if (s.line i).mode.isSome = true ∧ (s.line i).dsrInput ≠ (s.line i).dsr then
            { s.line i with dsrFilter := some 10 } else s.line i) ∧
          t.store = s.store ∧ t.params = s.params ∧ t.book = s.book ∧ t.tenders = s.tenders ∧ t.pending = s.pending) ∧
      (s.part.started = false → s.bus.current = none → s.bus.claims = [] →
        exec .pinResetRelease s = .next { s with
          part := { s.part with inReset := false }
          bus := { s.bus with current := some .loadOption, writeLeft := none, ackWindow := none } }))

/-! ### Frames and the image store -/

/-- The store port grants the waiting access of the best rank where it is free, and nothing where it is busy or none waits; while the
starvation counter stands at 32 a migration burst comes before all but raster channels. Raster channels are granted in round robin from the
one after the channel granted last, and card links likewise. A grant moves the pointer of its own kind alone; it returns the starvation
counter to 0 where it is a migration burst's, raises it by one up to 32 where a migration burst waits on, and leaves it otherwise. A card
block whose frame is no longer FILLING, or that waited when its frame left FILLING, is dropped when its grant comes, and the port serves the
next. The moment of the grant, at the end of a step, is the model's choice (log entry 6); once start-up has ended the card links are granted
after it. -/
def Obligations.StorePortGrantsTheBestRank : Prop :=
  ∀ s : State,
    (s.store.port.busy ≠ none ∨ s.store.port.waiting = [] → s.settlePort = s) ∧
    (s.store.port.choose = none ↔ s.store.port.waiting = []) ∧
    (∀ a, s.store.port.choose = some a → a ∈ s.store.port.waiting ∧
      (s.store.port.starvation ≠ 32 → ∀ b ∈ s.store.port.waiting, a.rank ≤ b.rank) ∧
      (s.store.port.starvation = 32 → (∃ b ∈ s.store.port.waiting, b.rank = 3) → a.rank = 3 ∨ a.rank = 0) ∧
      (∀ b ∈ s.store.port.waiting, b.rank = 0 → a.rank = 0) ∧
      (∀ (e d : Fin 3) (p q : Page) (x y n m : Nat), a = .raster e p x n → .raster d q y m ∈ s.store.port.waiting →
        (e - s.store.port.rasterLast - 1).val ≤ (d - s.store.port.rasterLast - 1).val) ∧
      (∀ (k l : Fin 4) (n m i j : Nat) (x y : List Byte) (v w : Bool), a = .block k n i x v → .block l m j y w ∈ s.store.port.waiting →
        (k - s.store.port.linkLast - 1).val ≤ (l - s.store.port.linkLast - 1).val)) ∧
    (∀ a, (s.store.port.granted a).busy = s.store.port.busy ∧ (s.store.port.granted a).waiting = s.store.port.waiting.erase a ∧
      (∀ e p x n, a = .raster e p x n → (s.store.port.granted a).rasterLast = e) ∧
      (a.rank ≠ 0 → (s.store.port.granted a).rasterLast = s.store.port.rasterLast) ∧
      (∀ k n i x v, a = .block k n i x v → (s.store.port.granted a).linkLast = k) ∧
      (a.rank ≠ 1 → (s.store.port.granted a).linkLast = s.store.port.linkLast) ∧
      (a.rank = 3 → (s.store.port.granted a).starvation = 0) ∧
      (a.rank ≠ 3 → (∃ b ∈ s.store.port.waiting, b.rank = 3) → s.store.port.starvation ≤ 32 →
        (s.store.port.granted a).starvation = min 32 (s.store.port.starvation + 1)) ∧
      ((∀ b ∈ s.store.port.waiting, b.rank ≠ 3) → a.rank ≠ 3 →
        (s.store.port.granted a).starvation = s.store.port.starvation)) ∧
    (∀ a, s.store.port.busy = none → s.store.port.choose = some a →
      (s.isDropped a = none → s.settlePort =
        { s with store := { s.store with port := { s.store.port.granted a with busy := some a } } }) ∧
      (∀ k, s.isDropped a = some k → s.settlePort =
        ({ s with store := { s.store with port := s.store.port.granted a } }.freeBuffer k).settlePort)) ∧
    (∀ (k : Fin 4) (n index : Nat) (data : List Byte),
      s.isDropped (.block k n index data true) = some k ∧
      ((∀ f, s.frame n = some f → f.state ≠ .filling) → s.isDropped (.block k n index data false) = some k) ∧
      ∀ f, s.frame n = some f → f.state = .filling → s.isDropped (.block k n index data false) = none) ∧
    (∀ (n : Nat) (f : Frame) (cause : DamageCause) (k : Fin 4) (index : Nat) (data : List Byte) (void : Bool),
      s.frame n = some f → f.state ≠ .damaged →
      .block k n index data void ∈ (s.damageFrame n cause).store.port.waiting → void = true) ∧
    (s.running = false → s.grantAll = s.settlePort) ∧
    (s.running = true → s.grantAll = s.settlePort.grantLinks)

/-- CREATE FRAME refuses a byte length of 0 or above 16,777,216 and a full Frame Table; otherwise the lowest free number is created, OPEN
with all its pages from the Free Pool's head where nothing waits for space and they suffice, and otherwise WAITING_SPACE at the tail of the
Space Wait List. RELEASE FRAME: an absent frame is refused; release pending already set is answered and nothing more; otherwise it is set. A
WAITING_SPACE or QUEUED frame is then damaged with cause CANCELLED and leaves its queues, a FILLING one has its cancel recorded or is
damaged as its link phase gives, and an OPEN, READY or DAMAGED one keeps its state. A frame that is cited or pinned stays, while one with
neither leaves the Frame Table unless a store access on its pages must end first; its condemned and worn pages go to the Bad Set and the
others to the Free Pool's tail. The Space Wait List is served after each page: its head waits on, and the frames behind it and the reserve
with it, while the pool holds fewer pages than it needs, and receives them all once it holds enough; and where the head leaves the list the
next frame is served at once. That a damage notice of it that still waits goes with it is the model's reading (log entry 48). -/
def Obligations.FramesAreCreatedAndReleased : Prop :=
  (∀ (n : Word32) (s : State), Reaches (.createFrame n) s →
      (n.toNat = 0 ∨ 16777216 < n.toNat → OnlyAnswers (.createFrame n) s .badArgument []) ∧
      (1 ≤ n.toNat → n.toNat ≤ 16777216 →
        ((∀ k, k < 1024 → s.frame k ≠ none) → OnlyAnswers (.createFrame n) s .tableFull []) ∧
        ∀ k, k < 1024 → s.frame k = none → (∀ j, j < k → s.frame j ≠ none) →
          ∃ t : State, exec (.createFrame n) s = .next t ∧ OnlyStore s t ∧ frameFlag k ∈ t.link.flags ∧
            (∀ j, j ≠ k → t.frame j = s.frame j) ∧
            (s.store.waitList = [] → (n.toNat + 65535) / 65536 ≤ s.store.freePool.length →
              Finishes (.createFrame n) .ok [BitVec.ofNat 8 (k / 256), BitVec.ofNat 8 k, 3] s t ∧
              t.frame k = some { newFrame .host n.toNat with
                state := .open, extent := s.store.freePool.take ((n.toNat + 65535) / 65536) } ∧
              t.store = { s.store with
                frames := t.store.frames, freePool := s.store.freePool.drop ((n.toNat + 65535) / 65536) } ∧
              (s.store.freePool.length - (n.toNat + 65535) / 65536 < s.params.lowMark → t.hasCondition .storeLow = true)) ∧
            (s.store.waitList ≠ [] ∨ s.store.freePool.length < (n.toNat + 65535) / 65536 →
              Finishes (.createFrame n) .ok [BitVec.ofNat 8 (k / 256), BitVec.ofNat 8 k, 0] s t ∧
              t.frame k = some (newFrame .host n.toNat) ∧
              t.store = { s.store with frames := t.store.frames, waitList := s.store.waitList ++ [k] }))) ∧
  (∀ (frame : Word16) (s : State), Reaches (.releaseFrame frame) s →
      (s.frame frame.toNat = none →
        exec (.releaseFrame frame) s = .next ((s.atWork (.releaseFrame frame)).respond .noSuchRecord []).grantAll) ∧
      (∀ f, s.frame frame.toNat = some f →
        (f.releasePending = true →
          exec (.releaseFrame frame) s = .next ((s.atWork (.releaseFrame frame)).respond .ok []).grantAll) ∧
        (f.releasePending = false → f.state = .open ∨ f.state = .ready ∨ f.state = .damaged →
          ∃ t : State, exec (.releaseFrame frame) s = .next t.grantAll ∧ Finishes (.releaseFrame frame) .ok [] s t ∧
            frameFlag frame.toNat ∈ t.link.flags ∧ t.store.mem = s.store.mem ∧
            (0 < f.references ∨ 0 < f.pins →
              t.frame frame.toNat = some { f with releasePending := true } ∧ (∀ m, m ≠ frame.toNat → t.frame m = s.frame m) ∧
              t.store = { s.store with frames := t.store.frames }) ∧
            (f.references = 0 → f.pins = 0 → s.store.port.busy = none → s.store.port.waiting = [] →
              s.store.migration = none → t.frame frame.toNat = none ∧ frame.toNat ∉ t.store.notices ∧
              (s.store.waitList = [] → s.params.spareTarget ≤ s.store.spares.length → PagesReturned f.extent s t) ∧
              (∀ m g rest, s.store.waitList = m :: rest → s.frame m = some g → m ≠ frame.toNat →
                (∀ p ∈ f.extent, (s.attr p).condemned = false ∧ (s.attr p).wear < s.params.migrationThreshold) →
                (s.store.freePool.length + f.extent.length < pagesFor g.byteLength →
                  t.store.waitList = s.store.waitList ∧ t.store.freePool = s.store.freePool ++ f.extent ∧
                  t.store.spares = s.store.spares ∧ ∀ k, k ≠ frame.toNat → t.frame k = s.frame k) ∧
                (rest = [] → s.store.freePool.length + f.extent.length = pagesFor g.byteLength →
                  s.store.freePool.length < pagesFor g.byteLength →
                  Granted m g (s.store.freePool ++ f.extent) s t ∧ t.store.waitList = [] ∧ t.store.freePool = [])))) ∧
        (f.releasePending = false → f.state = .waitingSpace ∨ f.state = .queued →
          ∃ t : State, exec (.releaseFrame frame) s = .next t.grantAll ∧ Finishes (.releaseFrame frame) .ok [] s t ∧
            frameFlag frame.toNat ∈ t.link.flags ∧ t.store.mem = s.store.mem ∧ frame.toNat ∉ t.store.waitList ∧
            (∀ i b w, f.origin = .card i b w → frame.toNat ∉ (t.slot i).importQueue) ∧
            (t.frame frame.toNat = none ∨ ∃ q, t.frame frame.toNat = some q ∧ q.state = .damaged ∧ q.cause = some .cancelled ∧
              q.releasePending = true) ∧
            (f.references = 0 → f.pins = 0 → s.store.port.busy = none → s.store.port.waiting = [] →
              s.store.migration = none → t.frame frame.toNat = none ∧
              (s.store.waitList = [] → s.params.spareTarget ≤ s.store.spares.length → PagesReturned f.extent s t)) ∧
            (∀ m g, f.extent = [] → s.store.waitList = [frame.toNat, m] → m ≠ frame.toNat → s.frame m = some g →
              pagesFor g.byteLength ≤ s.store.freePool.length →
              Granted m g (s.store.freePool.take (pagesFor g.byteLength)) s t ∧ t.store.waitList = [] ∧
              t.store.freePool = s.store.freePool.drop (pagesFor g.byteLength))) ∧
        (∀ i b w p, f.releasePending = false → f.state = .filling → f.origin = .card i b w → (s.slot i).progress = some p →
          (p.cancel = true ∨ p.phase = .running ∨ p.phase = .halting →
            ∃ t : State, exec (.releaseFrame frame) s = .next t.grantAll ∧ OnlyImages s t ∧
              Finishes (.releaseFrame frame) .ok [] s t ∧ frameFlag frame.toNat ∈ t.link.flags ∧
              t.store = { s.store with frames := t.store.frames } ∧ t.frame frame.toNat = some { f with releasePending := true } ∧
              (∀ m, m ≠ frame.toNat → t.frame m = s.frame m) ∧
              (p.cancel = true → t.cards = s.cards) ∧ (p.cancel = false → CancelRecorded i p s t)) ∧
          (p.cancel = false → p.phase = .waitingLink ∨ p.phase = .draining →
            ∃ t : State, exec (.releaseFrame frame) s = .next t.grantAll ∧ Finishes (.releaseFrame frame) .ok [] s t ∧
              frameFlag frame.toNat ∈ t.link.flags ∧ t.store.mem = s.store.mem ∧ frame.toNat ∉ (t.slot i).importQueue ∧
              (t.frame frame.toNat = none ∨
                ∃ q, t.frame frame.toNat = some q ∧ q.state = .damaged ∧ q.cause = some .cancelled)))))

/-- WRITE FRAME DATA is refused for an absent frame, a frame that is not an OPEN host frame, an offset other than the fill mark and data
beyond the byte length; otherwise its store write asks for the port. The store write of a host write completes: the complete 8-byte groups
of the held bytes and the new data are written from the first held byte on, the rest is held, the fill mark rises by the data's length and
the request is answered with it. No other frame changes. The bytes a frame write puts down are read back, and every other byte of the store
is as before: for an extent that names no page twice and bytes that lie within it. -/
def Obligations.FrameDataIsWritten : Prop :=
  (∀ (frame : Word16) (offset : Word32) (data : List Byte) (s : State),
      Reaches (.writeFrameData frame offset data) s →
      (s.frame frame.toNat = none → exec (.writeFrameData frame offset data) s =
        .next ((s.atWork (.writeFrameData frame offset data)).respond .noSuchRecord []).grantAll) ∧
      (∀ f, s.frame frame.toNat = some f →
        (f.origin ≠ .host ∨ f.state ≠ .open → exec (.writeFrameData frame offset data) s =
          .next ((s.atWork (.writeFrameData frame offset data)).respond .wrongState []).grantAll) ∧
        (f.origin = .host → f.state = .open → f.fillMark ≠ some offset.toNat → exec (.writeFrameData frame offset data) s =
          .next ((s.atWork (.writeFrameData frame offset data)).respond .badArgument []).grantAll) ∧
        (f.origin = .host → f.state = .open → f.fillMark = some offset.toNat → f.byteLength < offset.toNat + data.length →
          exec (.writeFrameData frame offset data) s =
            .next ((s.atWork (.writeFrameData frame offset data)).respond .limit []).grantAll) ∧
        (f.origin = .host → f.state = .open → f.fillMark = some offset.toNat → offset.toNat + data.length ≤ f.byteLength →
          exec (.writeFrameData frame offset data) s =
            .next ((s.atWork (.writeFrameData frame offset data)).askPort (.hostWrite frame.toNat data)).grantAll))) ∧
  (∀ (n : Nat) (data : List Byte) (f : Frame) (s : State),
      s.store.port.busy = some (.hostWrite n data) → s.frame n = some f →
      ∃ t : State, exec .hostWriteComplete s = .next t.grantAll ∧ OnlyImages s t ∧
        Answered .ok [BitVec.ofNat 8 ((f.fill + data.length) / 16777216), BitVec.ofNat 8 ((f.fill + data.length) / 65536),
          BitVec.ofNat 8 ((f.fill + data.length) / 256), BitVec.ofNat 8 (f.fill + data.length)] t ∧
        t.store.mem = writeFrameBytes s.store.mem f.extent (f.fill - f.heldBytes.length)
          ((f.heldBytes ++ data).take ((f.heldBytes ++ data).length / 8 * 8)) ∧
        (f.state = .open → f.retiring = false →
          t.frame n = some { f with
            fillMark := some (f.fill + data.length)
            heldBytes := (f.heldBytes ++ data).drop ((f.heldBytes ++ data).length / 8 * 8) } ∧
          (∀ m, m ≠ n → t.frame m = s.frame m) ∧
          t.store = { s.store with mem := t.store.mem, frames := t.store.frames, port := { s.store.port with busy := none } } ∧
          t.cards = s.cards)) ∧
  (∀ (mem : List Host.Cell) (extent : List Page) (x : Nat) (data : List Byte),
      extent.Nodup → x + data.length ≤ 65536 * extent.length →
      readFrameBytes (writeFrameBytes mem extent x data) extent x data.length = data ∧
      ∀ a, (∀ k, k < data.length → frameAddress extent (x + k) ≠ some a) →
        readByte (writeFrameBytes mem extent x data) a = readByte mem a)

/-- SEAL FRAME is refused for an absent frame, for one that is not an OPEN host frame and for one not yet full; a full frame without held
bytes is READY at once, and one with held bytes asks for their write. The write of the held bytes completes: one 8-byte group, its missing
bytes zero, is written from the first held byte on, the frame is READY without held bytes, and the request is answered. -/
def Obligations.FramesAreSealed : Prop :=
  (∀ (frame : Word16) (s : State), Reaches (.sealFrame frame) s →
      (s.frame frame.toNat = none →
        exec (.sealFrame frame) s = .next ((s.atWork (.sealFrame frame)).respond .noSuchRecord []).grantAll) ∧
      (∀ f, s.frame frame.toNat = some f →
        (f.origin ≠ .host ∨ f.state ≠ .open ∨ f.fill < f.byteLength →
          exec (.sealFrame frame) s = .next ((s.atWork (.sealFrame frame)).respond .wrongState []).grantAll) ∧
        (f.origin = .host → f.state = .open → f.byteLength ≤ f.fill → f.heldBytes ≠ [] →
          exec (.sealFrame frame) s = .next ((s.atWork (.sealFrame frame)).askPort (.hostSeal frame.toNat)).grantAll) ∧
        (f.origin = .host → f.state = .open → f.byteLength ≤ f.fill → f.heldBytes = [] →
          ∃ t : State, exec (.sealFrame frame) s = .next t.grantAll ∧ OnlyStore s t ∧ Finishes (.sealFrame frame) .ok [] s t ∧
            frameFlag frame.toNat ∈ t.link.flags ∧ t.frame frame.toNat = some { f with state := .ready } ∧
            (∀ m, m ≠ frame.toNat → t.frame m = s.frame m) ∧ t.store = { s.store with frames := t.store.frames }))) ∧
  (∀ (n : Nat) (f : Frame) (s : State), s.store.port.busy = some (.hostSeal n) → s.frame n = some f →
      ∃ t : State, exec .sealWriteComplete s = .next t.grantAll ∧ OnlyStore s t ∧ Answered .ok [] t ∧
        t.frame n = some { f with state := .ready, heldBytes := [] } ∧ (∀ m, m ≠ n → t.frame m = s.frame m) ∧
        t.store.mem = writeFrameBytes s.store.mem f.extent (f.fill - f.heldBytes.length)
          (f.heldBytes ++ List.replicate (8 - f.heldBytes.length) 0) ∧
        t.store = { s.store with mem := t.store.mem, frames := t.store.frames, port := { s.store.port with busy := none } })

/-- READ FRAME DATA is refused for an absent frame, for one that is not READY, for a count of 0 or above 512 and beyond the byte length;
otherwise its read asks for the port. A host read completes: without an uncorrectable group it is answered with the bytes of the frame,
across a page boundary too, and with one STORE_ERROR, and the READY frame is DAMAGED with STORE_ERROR, whichever of the two pages held it:
its notice goes to the Order Book, a migration of one of its pages is abandoned, and its pages are returned once no channel pins it. It
writes nothing to the store; a read without errors of a READY frame changes nothing but the port and the link. -/
def Obligations.FrameDataIsRead : Prop :=
  (∀ (frame : Word16) (offset : Word32) (count : Word16) (s : State), Reaches (.readFrameData frame offset count) s →
      (s.frame frame.toNat = none → exec (.readFrameData frame offset count) s =
        .next ((s.atWork (.readFrameData frame offset count)).respond .noSuchRecord []).grantAll) ∧
      (∀ f, s.frame frame.toNat = some f →
        (f.state ≠ .ready → exec (.readFrameData frame offset count) s =
          .next ((s.atWork (.readFrameData frame offset count)).respond .wrongState []).grantAll) ∧
        (f.state = .ready → count.toNat = 0 ∨ 512 < count.toNat → exec (.readFrameData frame offset count) s =
          .next ((s.atWork (.readFrameData frame offset count)).respond .badArgument []).grantAll) ∧
        (f.state = .ready → 1 ≤ count.toNat → count.toNat ≤ 512 → f.byteLength < offset.toNat + count.toNat →
          exec (.readFrameData frame offset count) s =
            .next ((s.atWork (.readFrameData frame offset count)).respond .limit []).grantAll) ∧
        (f.state = .ready → 1 ≤ count.toNat → count.toNat ≤ 512 → offset.toNat + count.toNat ≤ f.byteLength →
          exec (.readFrameData frame offset count) s =
            .next ((s.atWork (.readFrameData frame offset count)).askPort
              (.hostRead frame.toNat offset.toNat count.toNat)).grantAll))) ∧
  (∀ (n offset count : Nat) (first next : ReadErrors) (f : Frame) (s : State),
      s.store.port.busy = some (.hostRead n offset count) → s.frame n = some f →
      ∃ t : State, exec (.hostReadComplete first next) s = .next t.grantAll ∧ t.store.mem = s.store.mem ∧
        (first.uncorrectable = 0 → (offset / 65536 < (offset + count - 1) / 65536 → next.uncorrectable = 0) →
          Answered .ok (readFrameBytes s.store.mem f.extent offset count) t) ∧
        (0 < first.uncorrectable ∨ (offset / 65536 < (offset + count - 1) / 65536 ∧ 0 < next.uncorrectable) →
          Answered .storeError [] t) ∧
        (∀ p, LiesIn p n f s → f.extent[offset / 65536]? = some p → 0 < first.uncorrectable → StoreDamaged p n f s t) ∧
        (∀ p, LiesIn p n f s → offset / 65536 < (offset + count - 1) / 65536 → f.extent[offset / 65536 + 1]? = some p →
          0 < next.uncorrectable → StoreDamaged p n f s t) ∧
        (first = ReadErrors.none → next = ReadErrors.none → f.state = .ready → f.retiring = false →
          t = s.endAccess.respond .ok (readFrameBytes s.store.mem f.extent offset count)))

/-- A scrub step: SCRUB PAGE refuses a page number above 4095 and a page that is not eligible, begins its step at once or waits for the step
in progress; RESUME SCRUB takes the patrol out of STOPPED; the timer's expiry begins the step of the next eligible page, waits for a step in
progress, or starts the timer again where no page is eligible. A scrub portion completes: the page's wear count rises by its correctable
groups up to 15, an uncorrectable group condemns the page and damages its READY frame with STORE_ERROR, whose notice goes to the Order Book,
nothing is written, and before the sixteenth portion a step without errors goes on to its next portion while its page has stayed eligible.
At the sixteenth portion, and at the end of the portion at which its page has left eligibility since the step began, the step ends with the
counts found so far: the patrol is STOPPED where it found an uncorrectable group while stop-on-uncorrectable was set, SCRUB PAGE is answered
with its counts, and a patrol step starts the timer. A portion that finds an uncorrectable group in a page of a DAMAGED frame that stays
pinned counts it, notes whether stop-on-uncorrectable is set, and goes on. That the parameter is judged at the finding is the model's
reading (log entry 47), that a search waits for a SCRUB PAGE step is too (log entry 24), and so is that the correctable count comes first
(log entry 37). A worn page of a READY frame joins the tail of the Migration Queue where R20 admits it; its migration starts at once where
none is in progress and the queue was empty, with the lowest spare as its target, and where the Spare Reserve is empty SPARES_EMPTY is set
and the page stays at the head. -/
def Obligations.ScrubStepsBeginAndCountErrors : Prop :=
  (∀ s : State,
      (∀ page : Word16, Reaches (.scrubPage page) s →
        (4095 < page.toNat →
          exec (.scrubPage page) s = .next ((s.atWork (.scrubPage page)).respond .badArgument []).grantAll) ∧
        (∀ p : Page, p.val = page.toNat →
          (s.scrubbable p = false →
            exec (.scrubPage page) s = .next ((s.atWork (.scrubPage page)).respond .wrongState []).grantAll) ∧
          (s.scrubbable p = true → s.store.scrubStep = none →
            ∃ t : State, exec (.scrubPage page) s = .next t.grantAll ∧ t = { s.atWork (.scrubPage page) with store := { s.store with
              scrubStep := some ⟨p, 0, 0, 0, true, false, false⟩
              port := { s.store.port with waiting := s.store.port.waiting ++ [Access.scrub p] } } }) ∧
          (s.scrubbable p = true → s.store.scrubStep ≠ none →
            ∃ t : State, exec (.scrubPage page) s = .next t.grantAll ∧
              t = { s.atWork (.scrubPage page) with store := { s.store with scrubWaiting := some p } }))) ∧
      (Reaches .resumeScrub s →
        (s.store.patrol ≠ .stopped → OnlyAnswers .resumeScrub s .ok []) ∧
        (s.store.patrol = .stopped →
          exec .resumeScrub s = .next ({ s.atWork .resumeScrub with store := { s.store with
            patrol := if s.params.scrubInterval = 0 then .idle else .running
            scrubTimer := if s.params.scrubInterval = 0 then s.store.scrubTimer else some s.params.scrubInterval } }.respond .ok []))) ∧
      (s.part.inReset = false → s.part.started = true → s.store.scrubTimer ≠ none → s.store.patrol = .running →
        (s.store.scrubStep ≠ none →
          exec .scrubTimerExpiry s = .next { s with store := { s.store with scrubTimer := none, searchDue := true } }.grantAll) ∧
        (s.store.scrubStep = none → s.nextScrub = none →
          exec .scrubTimerExpiry s = .next { s with store := { s.store with scrubTimer := some s.params.scrubInterval } }.grantAll) ∧
        (∀ p, s.store.scrubStep = none → s.nextScrub = some p →
          exec .scrubTimerExpiry s = .next { s with store := { s.store with
            scrubTimer := none
            scrubCursor := p + 1
            passCount := if p.val = 4095 then s.store.passCount + 1 else s.store.passCount
            scrubStep := some ⟨p, 0, 0, 0, false, false, false⟩
            port := { s.store.port with waiting := s.store.port.waiting ++ [Access.scrub p] } } }.grantAll))) ∧
  (∀ (p : Page) (e : ReadErrors) (s : State), s.store.port.busy = some (.scrub p) →
      ∃ t : State, exec (.scrubPortionComplete e) s = .next t.grantAll ∧ t.store.mem = s.store.mem ∧
        (t.attr p).wear = (if e.correctable = 0 then (s.attr p).wear else min 15 ((s.attr p).wear + e.correctable)) ∧
        (t.attr p).condemned = (decide (0 < e.uncorrectable) || (s.attr p).condemned) ∧
        (t.attr p).readers = (s.attr p).readers ∧
        (∀ n f, s.owner p = some n → s.frame n = some f → f.state = .ready → f.retiring = false → 0 < e.correctable →
          e.uncorrectable = 0 → WearCounted p (min 15 ((s.attr p).wear + e.correctable)) n s t) ∧
        (∀ n f, LiesIn p n f s → 0 < e.uncorrectable → StoreDamaged p n f s t) ∧
        (∀ st : ScrubStep, e = ReadErrors.none → s.store.scrubStep = some st → st.page = p →
          (∀ n, s.owner p = some n → ∃ f, s.frame n = some f ∧ f.state ≠ .damaged ∧ f.retiring = false) →
          (st.portions < 15 → st.left = false → s.scrubbable p = true →
            t = { s with store := { s.store with
              scrubStep := some { st with portions := st.portions + 1 }
              port := { s.store.port with busy := none, waiting := s.store.port.waiting ++ [Access.scrub p] } } }) ∧
          (∀ (timer : Option Nat) (u : State), 15 ≤ st.portions ∨ st.left = true ∨ s.scrubbable p = false →
            s.store.scrubWaiting = none → s.store.searchDue = false →
            timer = (if st.stops then none else if st.host then s.store.scrubTimer
              else if s.store.patrol = .running then some s.params.scrubInterval else none) →
            u = { s with store := { s.store with
              scrubStep := none
              patrol := if st.stops then .stopped else s.store.patrol
              scrubTimer := timer
              port := { s.store.port with busy := none } } } →
            t = if st.host = false then u
              else if 0 < st.uncorrectable then u.respond .storeError [BitVec.ofNat 8 (st.correctable / 256),
                BitVec.ofNat 8 st.correctable, BitVec.ofNat 8 (st.uncorrectable / 256), BitVec.ofNat 8 st.uncorrectable]
              else u.respond .ok [BitVec.ofNat 8 (st.correctable / 256), BitVec.ofNat 8 st.correctable])) ∧
        (∀ (st : ScrubStep) (n : Nat) (f : Frame), 0 < e.uncorrectable → s.store.scrubStep = some st → st.page = p →
          s.owner p = some n → s.frame n = some f → f.state = .damaged → 0 < f.pins → f.retiring = false →
          st.portions < 15 → st.left = false → s.scrubbable p = true →
          t.store.scrubStep = some { st with
            portions := st.portions + 1
            correctable := st.correctable + e.correctable
            uncorrectable := st.uncorrectable + e.uncorrectable
            stops := st.stops || decide (s.params.stopOnUncorrectable = 1) } ∧
          t.store.patrol = s.store.patrol ∧ t.store.port.waiting = s.store.port.waiting ++ [Access.scrub p]))

/-- A migration burst completes without an uncorrectable group: the page's wear count rises by its corrected groups up to 15, its 4096 bytes
are copied from the old page to the same position of the target, and no other byte changes; the sixteenth puts the target in the frame's
extent in place of the old page, which goes to the Bad Set, or to the Retiring Set while raster channels read it, and the next migration is
tried: with the lowest spare as its target, or setting SPARES_EMPTY where the reserve is empty. A burst that met an uncorrectable group
writes nothing, and its READY frame is DAMAGED with STORE_ERROR and the migration abandoned. That an abandoned migration's burst writes
nothing is the model's reading (log entry 36). -/
def Obligations.MigrationBurstCompleteCopiesTheBurst : Prop :=
  (∀ (m : Migration) (e : ReadErrors) (s : State),
    s.store.port.busy = some (.migration m.page m.target (m.bursts * 4096)) → s.store.migration = some m →
    (0 < e.uncorrectable → ∃ t : State, exec (.migrationBurstComplete e) s = .next t.grantAll ∧ t.store.mem = s.store.mem ∧
      (t.attr m.page).condemned = true ∧ ∀ f, LiesIn m.page m.frame f s → StoreDamaged m.page m.frame f s t) ∧
    (∀ w : State, e.uncorrectable = 0 → m.bursts < 15 →
      w = (if e.correctable = 0 then s
        else s.setAttr m.page { s.attr m.page with wear := min 15 ((s.attr m.page).wear + e.correctable) }) →
      exec (.migrationBurstComplete e) s = .next { s with store := { s.store with
        attrs := w.store.attrs
        mem := writeBytes s.store.mem (m.target.val * 65536 + m.bursts * 4096)
          (readBytes s.store.mem (m.page.val * 65536 + m.bursts * 4096) 4096)
        migration := some { m with bursts := m.bursts + 1 }
        port := { s.store.port with
          busy := none
          waiting := s.store.port.waiting ++ [Access.migration m.page m.target ((m.bursts + 1) * 4096)] } } }.grantAll) ∧
    (∀ f, e.uncorrectable = 0 → m.bursts = 15 → s.frame m.frame = some f →
      ∃ t : State, exec (.migrationBurstComplete e) s = .next t.grantAll ∧
        t.store.mem = writeBytes s.store.mem (m.target.val * 65536 + 15 * 4096)
          (readBytes s.store.mem (m.page.val * 65536 + 15 * 4096) 4096) ∧
        t.frame m.frame = some { f with extent := f.extent.map fun p => if p = m.page then m.target else p } ∧
        (∀ k, k ≠ m.frame → t.frame k = s.frame k) ∧
        (t.attr m.page).wear = (if e.correctable = 0 then (s.attr m.page).wear
          else min 15 ((s.attr m.page).wear + e.correctable)) ∧
        (t.attr m.page).readers = (s.attr m.page).readers ∧
        ((s.attr m.page).readers = 0 → m.page ∈ t.store.bad) ∧
        (0 < (s.attr m.page).readers → m.page ∈ t.store.retiringPages) ∧
        (∀ q rest a spares, TablesSound s → s.store.migrationQueue = q :: rest → q ≠ m.page → q ≠ m.target →
          s.store.spares = a :: spares → s.params.spareTarget ≤ s.store.spares.length →
          t.store.migration = some ⟨q, a, (s.owner q).getD 0, 0⟩ ∧ t.store.migrationQueue = rest ∧ t.store.spares = spares ∧
          Access.migration q a 0 ∈ t.store.port.waiting) ∧
        (s.store.migrationQueue = [] → s.params.spareTarget ≤ s.store.spares.length ∨ s.store.freePool = [] →
          t.store.migration = none ∧ t.store.spares = s.store.spares ∧ t.store.freePool = s.store.freePool) ∧
        (s.store.migrationQueue ≠ [] → s.store.spares = [] → s.params.spareTarget = 0 ∨ s.store.freePool = [] →
          t.store.migration = none ∧ t.store.migrationQueue = s.store.migrationQueue ∧ t.hasCondition .sparesEmpty = true) ∧
        (∀ q queue a rest, TablesSound s → s.store.migrationQueue = q :: queue → q ≠ m.page → q ≠ m.target → s.store.spares = [] →
          s.params.spareTarget = 1 → s.store.waitList = [] → s.store.freePool = a :: rest →
          t.store.migration = some ⟨q, a, (s.owner q).getD 0, 0⟩ ∧ t.store.migrationQueue = queue ∧
          t.store.spares = rest.take 1 ∧ t.store.freePool = rest.drop 1))) ∧
  (∀ (page target : Page) (x : Nat) (e : ReadErrors) (s : State), s.store.port.busy = some (.migration page target x) →
    (∀ m, s.store.migration = some m → m.page ≠ page ∨ m.target ≠ target ∨ m.bursts * 4096 ≠ x) →
    (∀ n f, s.owner page = some n → s.frame n = some f → f.state ≠ .ready ∨ f.retiring = true) →
    ∃ t : State, exec (.migrationBurstComplete e) s = .next t.grantAll ∧ t.store.mem = s.store.mem)

/-- The Order Book takes the oldest frame damage notice: every line of an order in PRINTING that cites the frame fails its waiting copies
and is stopped with STORE_ERROR, and no other line of any order changes: for record tables in ascending order, as every step keeps them. An
order that alone is affected goes on while a copy of it is unresolved, and is settled where none is: CLOSED, or SETTLING with the capture or
the void asked for. The moment at which a notice is taken is the model's choice (log entry 5). -/
def Obligations.FrameDamageNoticeStopsTheLines : Prop :=
  ∀ (n : Fin 1024) (rest : List Nat) (s : State), TablesSound s → s.part.inReset = false → s.part.started = true →
    s.store.notices = n.val :: rest →
    ∃ t : State, exec (.frameDamageNotice n) s = .next t ∧ Quiet s t ∧ t.store = { s.store with notices := rest } ∧
      (∀ k o, s.order k = some o → ∃ q, t.order k = some q ∧
        q.lines = if o.state = .printing then
          o.lines.map fun l => if l.frame = n.val then
            { l with failed := l.failed + l.waiting, stopped := true, lastFault := some .storeError } else l
          else o.lines) ∧
      (∀ k o p, s.order k = some o → o.state = .printing → (∃ l ∈ o.lines, l.frame = n.val) →
        (∀ m x, m ≠ k → s.order m = some x → x.state = .printing → ∀ l ∈ x.lines, l.frame ≠ n.val) →
        p = { o with lines := o.lines.map fun l => if l.frame = n.val then
          { l with failed := l.failed + l.waiting, stopped := true, lastFault := some .storeError } else l } →
        ((∃ l ∈ p.lines, 0 < l.waiting ∨ 0 < l.inFlight) →
          OrderIs k p s t ∧ ∀ x, x ∈ t.ready ↔ x ∈ s.ready ∧ ∀ l ∈ o.lines, l.frame = n.val → x ≠ (k, l.number)) ∧
        ((∀ l ∈ p.lines, l.waiting = 0 ∧ l.inFlight = 0) → Settles k p s t)) ∧
      t.cards = s.cards ∧ t.engines = s.engines ∧ t.thermal = s.thermal ∧ t.bus = s.bus ∧ t.part = s.part ∧ t.params = s.params ∧
      t.pending = s.pending

/-! ### Card slots and import -/

/-- DET_N active takes an EMPTY slot to SETTLING with a debounce of 50 ms, its release returns a SETTLING slot to EMPTY, the debounce's
expiry powers the card and the slot enters IDENTIFYING, which asks for its link, and RESET SLOT takes a FAULTED slot back to SETTLING with
both counts 0 and answers WRONG_STATE in any other state. No other slot changes, and nothing outside the slot and the link. A removed card:
its slot is EMPTY without power, capacity or identity, its link is rid of its work and serves the other slot at once, and every frame of its
Import Queue is damaged with cause REMOVED or retired; the session number and the last error stay, and so do the bytes of the store. -/
def Obligations.CardsAreDetectedAndRemoved : Prop :=
  (∀ (i : Fin 8) (s : State),
      (s.part.inReset = false → s.part.started = true →
        ((s.slot i).detect = false → (s.slot i).state = .empty →
          ∃ t : State, exec (.detectActive i) s = .next t ∧ OnlyCards s t ∧ Quiet s t ∧ slotFlag i ∈ t.link.flags ∧
            t.slot i = { s.slot i with detect := true, state := .settling, debounce := some 50 } ∧
            (∀ j, j ≠ i → t.slot j = s.slot j) ∧ t.cards.links = s.cards.links) ∧
        ((s.slot i).detect = true → (s.slot i).state = .settling →
          ∃ t : State, exec (.detectReleaseSettling i) s = .next t ∧ OnlyCards s t ∧ Quiet s t ∧ slotFlag i ∈ t.link.flags ∧
            t.slot i = { s.slot i with detect := false, state := .empty, debounce := none } ∧
            (∀ j, j ≠ i → t.slot j = s.slot j) ∧ t.cards.links = s.cards.links) ∧
        ((s.slot i).detect = true → (s.slot i).state = .settling → (s.slot i).debounce ≠ none →
          ∃ t : State, exec (.debounceExpiry i) s = .next t.grantAll ∧ OnlyCards s t ∧ Quiet s t ∧ slotFlag i ∈ t.link.flags ∧
            t.slot i = { s.slot i with state := .identifying, power := true, debounce := none } ∧
            (∀ j, j ≠ i → t.slot j = s.slot j) ∧ t.cards.links = s.cards.links)) ∧
      (∀ b : Byte, Reaches (.resetSlot b) s →
        (7 < b.toNat → OnlyAnswers (.resetSlot b) s .badArgument []) ∧
        (b.toNat = i.val → (s.slot i).state ≠ .faulted → OnlyAnswers (.resetSlot b) s .wrongState []) ∧
        (b.toNat = i.val → (s.slot i).state = .faulted →
          ∃ t : State, exec (.resetSlot b) s = .next t ∧ OnlyCards s t ∧ Finishes (.resetSlot b) .ok [] s t ∧
            slotFlag i ∈ t.link.flags ∧
            t.slot i = { s.slot i with
              state := .settling, debounce := some 50, failedIdentifies := 0, failedImports := 0, power := false, capacity := none
              identity := none } ∧
            (∀ j, j ≠ i → t.slot j = s.slot j) ∧ t.cards.links = s.cards.links))) ∧
  (∀ (i : Fin 8) (s : State), s.part.inReset = false → s.part.started = true → (s.slot i).detect = true →
      ((s.slot i).state = .identifying ∨ (s.slot i).state = .ready ∨ (s.slot i).state = .faulted) →
      ∃ t : State, exec (.cardRemoval i) s = .next t.grantAll ∧ OnlyImages s t ∧ Quiet s t ∧ slotFlag i ∈ t.link.flags ∧
        t.store.mem = s.store.mem ∧
        (t.slot i).state = .empty ∧ (t.slot i).power = false ∧ (t.slot i).detect = false ∧ (t.slot i).capacity = none ∧
        (t.slot i).identity = none ∧ (t.slot i).failedIdentifies = 0 ∧ (t.slot i).failedImports = 0 ∧
        (t.slot i).session = (s.slot i).session ∧ (t.slot i).lastError = (s.slot i).lastError ∧
        OtherLinks (linkOf i) s t ∧
        ((s.cardLink (linkOf i)).work.position ≠ some (isOdd i) → t.cardLink (linkOf i) = { s.cardLink (linkOf i) with
          gained := (t.cardLink (linkOf i)).gained }) ∧
        ((s.cardLink (linkOf i)).work.position = some (isOdd i) →
          ((s.slot (otherSlot i)).state ≠ .identifying → (s.slot (otherSlot i)).importQueue = [] →
            t.cardLink (linkOf i) = { s.cardLink (linkOf i) with
              work := .free, responseWait := none, blockWait := none, gained := (t.cardLink (linkOf i)).gained }) ∧
          ((s.slot (otherSlot i)).state = .identifying →
            t.cardLink (linkOf i) = { s.cardLink (linkOf i) with
              pointerOdd := !isOdd i
              gained := none
              work := .wake (!isOdd i) 0
              token := [if isOdd i then 0x01 else 0x81, 0, 0, 0, 0, 0, 0, if isOdd i then 0x01 else 0x81]
              responseWait := some 100
              blockWait := none }) ∧
          (∀ n rest f b w, (s.slot (otherSlot i)).state = .ready → (s.slot (otherSlot i)).importQueue = n :: rest →
            s.frame n = some f → f.state = .queued → f.origin = .card (otherSlot i) b w →
            (t.cardLink (linkOf i)).work = .readRun (!isOdd i) 0 (min 128 ((f.byteLength + 511) / 512)))) ∧
        (∀ n f b w, n ∈ (s.slot i).importQueue → s.frame n = some f → f.origin = .card i b w → f.state ≠ .damaged →
          n ∉ (t.slot i).importQueue ∧
          (t.frame n = none ∨ ∃ q, t.frame n = some q ∧ q.state = .damaged ∧ q.cause = some .removed)))

/-- IMPORT FRAME is refused by the first of its checks that fails: the slot, a length of 0, a length above 16,777,216, a slot that is not
READY, a stale session, a range beyond the capacity, 16 frames queued, a full Frame Table. Otherwise a card frame is created at the lowest
free number, QUEUED with its pages or WAITING_SPACE, and joins the tail of the slot's Import Queue. CANCEL IMPORT: NO_SUCH_RECORD for an
absent frame, WRONG_STATE for a host frame and for a card frame that is READY or DAMAGED. A frame still WAITING_SPACE or QUEUED is damaged
with cause CANCELLED or retired. A FILLING head with a run or a HALT in progress records the cancel and is otherwise damaged so too, and a
cancel already recorded is answered and nothing more. -/
def Obligations.ImportsAreQueuedAndCancelled : Prop :=
  (∀ (b session : Byte) (start n : Word32) (s : State), Reaches (.importFrame b session start n) s →
      (7 < b.toNat → AnswersAndGrants (.importFrame b session start n) s .badArgument []) ∧
      (∀ i : Fin 8, b.toNat = i.val →
        (n.toNat = 0 → AnswersAndGrants (.importFrame b session start n) s .badArgument []) ∧
        (16777216 < n.toNat → AnswersAndGrants (.importFrame b session start n) s .limit []) ∧
        (1 ≤ n.toNat → n.toNat ≤ 16777216 →
          ((s.slot i).state ≠ .ready → AnswersAndGrants (.importFrame b session start n) s .wrongState []) ∧
          ((s.slot i).state = .ready → session ≠ (s.slot i).session →
            AnswersAndGrants (.importFrame b session start n) s .staleSession []) ∧
          (∀ c : Word32, (s.slot i).state = .ready → session = (s.slot i).session → (s.slot i).capacity = some c →
            (c.toNat < start.toNat + (n.toNat + 511) / 512 →
              AnswersAndGrants (.importFrame b session start n) s .badArgument []) ∧
            (start.toNat + (n.toNat + 511) / 512 ≤ c.toNat →
              (16 ≤ (s.slot i).importQueue.length ∨ (∀ k, k < 1024 → s.frame k ≠ none) →
                AnswersAndGrants (.importFrame b session start n) s .tableFull []) ∧
              ∀ k, (s.slot i).importQueue.length < 16 → k < 1024 → s.frame k = none → (∀ j, j < k → s.frame j ≠ none) →
                ∃ t : State, exec (.importFrame b session start n) s = .next t.grantAll ∧ OnlyImages s t ∧ frameFlag k ∈ t.link.flags ∧
                  slotFlag i ∈ t.link.flags ∧ t.slot i = { s.slot i with importQueue := (s.slot i).importQueue ++ [k] } ∧
                  (∀ j, j ≠ i → t.slot j = s.slot j) ∧
                  (∀ j, t.cardLink j = { s.cardLink j with gained := (t.cardLink j).gained }) ∧
                  (∀ j, j ≠ k → t.frame j = s.frame j) ∧
                  (s.store.waitList = [] → (n.toNat + 65535) / 65536 ≤ s.store.freePool.length →
                    Finishes (.importFrame b session start n) .ok [BitVec.ofNat 8 (k / 256), BitVec.ofNat 8 k, 1] s t ∧
                    t.frame k = some { newFrame (.card i session start) n.toNat with
                      state := .queued, extent := s.store.freePool.take ((n.toNat + 65535) / 65536) } ∧
                    t.store = { s.store with
                      frames := t.store.frames, freePool := s.store.freePool.drop ((n.toNat + 65535) / 65536) }) ∧
                  (s.store.waitList ≠ [] ∨ s.store.freePool.length < (n.toNat + 65535) / 65536 →
                    Finishes (.importFrame b session start n) .ok [BitVec.ofNat 8 (k / 256), BitVec.ofNat 8 k, 0] s t ∧
                    t.frame k = some (newFrame (.card i session start) n.toNat) ∧
                    t.store = { s.store with frames := t.store.frames, waitList := s.store.waitList ++ [k] })))))) ∧
  (∀ (frame : Word16) (s : State), Reaches (.cancelImport frame) s →
      (s.frame frame.toNat = none →
        exec (.cancelImport frame) s = .next ((s.atWork (.cancelImport frame)).respond .noSuchRecord []).grantAll) ∧
      (∀ f, s.frame frame.toNat = some f →
        (f.origin = .host ∨ f.state = .ready ∨ f.state = .damaged →
          exec (.cancelImport frame) s = .next ((s.atWork (.cancelImport frame)).respond .wrongState []).grantAll) ∧
        (∀ i b w, f.origin = .card i b w →
          (f.state = .waitingSpace ∨ f.state = .queued →
            ∃ t : State, exec (.cancelImport frame) s = .next t.grantAll ∧ Finishes (.cancelImport frame) .ok [] s t ∧
              frameFlag frame.toNat ∈ t.link.flags ∧ t.store.mem = s.store.mem ∧ frame.toNat ∉ (t.slot i).importQueue ∧
              (t.frame frame.toNat = none ∨
                ∃ q, t.frame frame.toNat = some q ∧ q.state = .damaged ∧ q.cause = some .cancelled)) ∧
          (∀ p, f.state = .filling → (s.slot i).progress = some p →
            (p.cancel = true →
              exec (.cancelImport frame) s = .next ((s.atWork (.cancelImport frame)).respond .ok []).grantAll) ∧
            (p.cancel = false → p.phase = .running ∨ p.phase = .halting →
              ∃ t : State, exec (.cancelImport frame) s = .next t.grantAll ∧ OnlyCards s t ∧
                Finishes (.cancelImport frame) .ok [] s t ∧ CancelRecorded i p s t) ∧
            (p.cancel = false → p.phase = .waitingLink ∨ p.phase = .draining →
              ∃ t : State, exec (.cancelImport frame) s = .next t.grantAll ∧ Finishes (.cancelImport frame) .ok [] s t ∧
                frameFlag frame.toNat ∈ t.link.flags ∧ t.store.mem = s.store.mem ∧ frame.toNat ∉ (t.slot i).importQueue ∧
                (t.frame frame.toNat = none ∨
                  ∃ q, t.frame frame.toNat = some q ∧ q.state = .damaged ∧ q.cause = some .cancelled))))))

/-- A card link at work. A free link is granted to a slot with work, to the one the pointer does not name where both have work; the grant
sends WAKE for an IDENTIFYING slot, and for a READY one the READ RUN of its head frame up to the end of the page; once start-up has ended no
link stands free beside work. A response is judged: REFUSED, TOKEN_CHECK, BUSY, and OK. OK to WAKE sends IDENTIFY, OK to IDENTIFY with a
capacity makes the slot READY under the next session; without one it fails as BAD_CAPACITY. A failed identify is counted, and the third
makes the slot FAULTED without power. OK to READ RUN brings the block packets, or HALT under a recorded cancel; a failed READ RUN sends
HALT, except REFUSED, which ends the run; and HALT ends the run whatever the answer. BUSY is waited out ten times for each token. A wait
starts with the command that sends the token (log entry 34). -/
def Obligations.CardLinkIdentifiesTheCard : Prop :=
  (∀ (k : Fin 4) (odd : Bool) (s : State), s.part.inReset = false → s.part.started = true →
    (((s.cardLink k).work ≠ .free → exec (.linkGrant k) s = .next s) ∧
      ((s.cardLink k).work = .free → s.grantPosition k = none →
        exec (.linkGrant k) s = .next (s.modLink k fun l => { l with gained := none })) ∧
      (s.grantPosition k = some odd → s.slotHasWork (slotOf k odd) = true) ∧
      (s.slotHasWork (slotOf k odd) = true → s.grantPosition k ≠ none) ∧
      (s.slotHasWork (slotOf k odd) = true → s.slotHasWork (slotOf k !odd) = true → (s.cardLink k).gained = none →
        s.grantPosition k = some (!(s.cardLink k).pointerOdd)) ∧
      ((s.grantAll.cardLink k).work = .free → s.grantAll.grantPosition k = none) ∧
      ((s.cardLink k).work = .free → s.grantPosition k = some odd → (s.slot (slotOf k odd)).state = .identifying →
        exec (.linkGrant k) s = .next (s.modLink k fun l => { l with
          pointerOdd := odd
          gained := none
          work := .wake odd 0
          token := [if odd then 0x81 else 0x01, 0, 0, 0, 0, 0, 0, if odd then 0x81 else 0x01]
          responseWait := some 100
          blockWait := none })) ∧
      (∀ n rest f b w, (s.cardLink k).work = .free → s.grantPosition k = some odd → (s.slot (slotOf k odd)).state = .ready →
        (s.slot (slotOf k odd)).importQueue = n :: rest → s.frame n = some f → f.origin = .card (slotOf k odd) b w →
        (f.state = .queued →
          ∃ t : State, exec (.linkGrant k) s = .next t ∧ OnlyImages s t ∧ Quiet s t ∧ frameFlag n ∈ t.link.flags ∧
            ((s.slot (slotOf k odd)).progress = none → slotFlag (slotOf k odd) ∈ t.link.flags) ∧
            t.store = { s.store with frames := t.store.frames } ∧ t.frame n = some { f with state := .filling } ∧
            (∀ m, m ≠ n → t.frame m = s.frame m) ∧
            t.slot (slotOf k odd) = { s.slot (slotOf k odd) with
              progress := some ⟨0, 0, .running, (f.byteLength + 511) / 512, 0, false⟩ } ∧
            (∀ j, j ≠ slotOf k odd → t.slot j = s.slot j) ∧
            RunSent k odd w.toNat (min 128 ((f.byteLength + 511) / 512)) s t) ∧
        (∀ p, f.state = .filling → (s.slot (slotOf k odd)).progress = some p → p.phase = .waitingLink →
          ∃ t : State, exec (.linkGrant k) s = .next t ∧ OnlyCards s t ∧ Quiet s t ∧
            t.slot (slotOf k odd) = { s.slot (slotOf k odd) with progress := some { p with phase := .running } } ∧
            (∀ j, j ≠ slotOf k odd → t.slot j = s.slot j) ∧
            RunSent k odd (w.toNat + p.next) (min (128 - p.next % 128) (p.blocks - p.next)) s t))) ∧
    (∀ (busy : Nat) (i : Instr) (c : Word32) (l : List Byte), (s.cardLink k).work = .wake odd busy → Responds k i (.succeeds c l) s →
      exec i s = .next (s.modLink k fun l => { l with
        work := .identify odd 0
        token := [if odd then 0x82 else 0x02, 0, 0, 0, 0, 0, 0, if odd then 0x82 else 0x02]
        responseWait := some 100
        blockWait := none }).grantAll) ∧
    (∀ (busy : Nat) (i : Instr) (capacity : Word32) (identity : List Byte), (s.cardLink k).work = .identify odd busy →
      Responds k i (.succeeds capacity identity) s → capacity ≠ 0 →
      ∃ t : State, exec i s = .next t.grantAll ∧ OnlyCards s t ∧ Quiet s t ∧
        slotFlag (slotOf k odd) ∈ t.link.flags ∧
        t.slot (slotOf k odd) = { s.slot (slotOf k odd) with
          state := .ready
          session := (s.slot (slotOf k odd)).session + 1
          capacity := some capacity
          identity := some identity
          failedIdentifies := 0
          failedImports := 0
          lastError := none } ∧
        (∀ j, j ≠ slotOf k odd → t.slot j = s.slot j) ∧ (t.cardLink k).work = .free) ∧
    (∀ (busy : Nat) (i : Instr) (e : LinkError),
      (((s.cardLink k).work = .wake odd busy ∨ (s.cardLink k).work = .identify odd busy) ∧ ExchangeFails k i e s) ∨
        ((s.cardLink k).work = .identify odd busy ∧ e = .badCapacity ∧ ∃ identity, Responds k i (.succeeds 0 identity) s) →
      ∃ t : State, exec i s = .next t.grantAll ∧ OnlyCards s t ∧ Quiet s t ∧
        slotFlag (slotOf k odd) ∈ t.link.flags ∧ (t.cardLink k).work = .free ∧
        (∀ j, j ≠ slotOf k odd → t.slot j = s.slot j) ∧
        ((s.slot (slotOf k odd)).failedIdentifies < 2 → t.slot (slotOf k odd) = { s.slot (slotOf k odd) with
          lastError := some e, failedIdentifies := (s.slot (slotOf k odd)).failedIdentifies + 1 }) ∧
        (2 ≤ (s.slot (slotOf k odd)).failedIdentifies → t.slot (slotOf k odd) = { s.slot (slotOf k odd) with
          lastError := some e, failedIdentifies := (s.slot (slotOf k odd)).failedIdentifies + 1
          state := .faulted, power := false })) ∧
    (∀ (busy count : Nat) (i : Instr) (w next : LinkWork), busy < 10 → (s.cardLink k).work = w → Responds k i .busy s →
      (w, next) ∈ [(LinkWork.wake odd busy, LinkWork.wake odd (busy + 1)), (.identify odd busy, .identify odd (busy + 1)),
        (.readRun odd busy count, .readRun odd (busy + 1) count), (.halt odd busy, .halt odd (busy + 1))] →
      exec i s = .next (s.modLink k fun l => { l with work := next, responseWait := some 100 }).grantAll) ∧
    (∀ (busy count n : Nat) (rest : List Nat) (p : Progress) (f : Frame) (b : Byte) (w : Word32) (i : Instr),
      (s.slot (slotOf k odd)).importQueue = n :: rest → (s.slot (slotOf k odd)).progress = some p → s.frame n = some f →
      f.state = .filling → f.origin = .card (slotOf k odd) b w →
      ((s.cardLink k).work = .readRun odd busy count →
        (∀ c l, Responds k i (.succeeds c l) s →
          (p.cancel = false → exec i s = .next (s.modLink k fun l => { l with
            work := .blocks odd count
            responseWait := none
            blockWait := if l.buffersHeld < 2 then some 250 else none }).grantAll) ∧
          (p.cancel = true →
            ∃ t : State, exec i s = .next t.grantAll ∧ OnlyCards s t ∧ Quiet s t ∧ HaltSent k odd s t ∧
              t.slot (slotOf k odd) = { s.slot (slotOf k odd) with progress := some { p with phase := .halting } } ∧
              ∀ j, j ≠ slotOf k odd → t.slot j = s.slot j)) ∧
        (∀ e, ExchangeFails k i e s →
          (e ≠ .refused →
            ∃ t : State, exec i s = .next t.grantAll ∧ OnlyCards s t ∧ Quiet s t ∧ HaltSent k odd s t ∧
              t.slot (slotOf k odd) = { s.slot (slotOf k odd) with
                lastError := some e, progress := some { p with phase := .halting } } ∧
              ∀ j, j ≠ slotOf k odd → t.slot j = s.slot j) ∧
          (e = .refused → ∃ t : State, exec i s = .next t.grantAll ∧ RunOver k odd n rest p (some e) s t))) ∧
      ((s.cardLink k).work = .halt odd busy →
        (∀ c l, Responds k i (.succeeds c l) s →
          ∃ t : State, exec i s = .next t.grantAll ∧ RunOver k odd n rest p (s.slot (slotOf k odd)).lastError s t) ∧
        (∀ e, ExchangeFails k i e s →
          ∃ t : State, exec i s = .next t.grantAll ∧ RunOver k odd n rest p (some e) s t)))) ∧
  (∀ (kind a echo check : Byte) (identify : Bool), a ≠ 0xFF → a ≠ 0xA0 ∨ identify = false →
    judgeToken kind identify [a, echo, check] =
      if echo = kind ∧ check = a ^^^ echo then
        if a = 0xA0 then .succeeds 0 [] else if a = 0xB0 then .busy else if a = 0xC0 then .fails .refused else .fails .tokenCheck
      else .fails .tokenCheck)

/-- A run of blocks: a good block of a frame is handed to the store port, cut at the byte length, and the import's next block moves on; the
last block of the run releases the link. A block that does not come in time records BLOCK_TIMEOUT and a bad one BLOCK_CHECK, and either
sends HALT; a good block under a recorded cancel is discarded and sends HALT too. The write of a block puts its bytes at their place in the
frame, no other byte changes, and the last write of the import makes the frame READY and takes it from the queue. -/
def Obligations.CardBlocksReachTheFrame : Prop :=
  ∀ (k : Fin 4) (odd : Bool) (n : Nat) (rest : List Nat) (p : Progress) (f : Frame) (s : State),
    s.part.inReset = false → s.part.started = true →
    (s.slot (slotOf k odd)).importQueue = n :: rest → (s.slot (slotOf k odd)).progress = some p → s.frame n = some f →
    (∀ (left : Nat) (data : List Byte), (s.cardLink k).work = .blocks odd left → (s.cardLink k).blockWait ≠ none →
      data.length = 512 →
      (p.cancel = false →
        ∃ t : State, exec (.blockPacket k 0xFE data (cardCrc data)) s = .next t.grantAll ∧ Quiet s t ∧
          t.store = { s.store with port := { s.store.port with waiting := s.store.port.waiting ++
            [Access.block k n p.next (blockAsWritten f.byteLength p.next data) false] } } ∧
          (∀ j, j ≠ slotOf k odd → t.slot j = s.slot j) ∧ (∀ j, j ≠ k → t.cardLink j = s.cardLink j) ∧
          (1 < left →
            t.slot (slotOf k odd) = { s.slot (slotOf k odd) with progress := some { p with next := p.next + 1, attempts := 0 } } ∧
            t.cardLink k = { s.cardLink k with
              work := .blocks odd (left - 1)
              buffersHeld := (s.cardLink k).buffersHeld + 1
              blockWait := if (s.cardLink k).buffersHeld + 1 < 2 then some 250 else none }) ∧
          (left ≤ 1 →
            t.slot (slotOf k odd) = { s.slot (slotOf k odd) with progress := some { p with
              next := p.next + 1, attempts := 0, phase := if p.next + 1 < p.blocks then .waitingLink else .draining } } ∧
            t.cardLink k = { s.cardLink k with
              work := .free, responseWait := none, blockWait := none, buffersHeld := (s.cardLink k).buffersHeld + 1 })) ∧
      (p.cancel = true →
        ∃ t : State, exec (.blockPacket k 0xFE data (cardCrc data)) s = .next t.grantAll ∧ OnlyCards s t ∧ Quiet s t ∧
          HaltSent k odd s t ∧
          t.slot (slotOf k odd) = { s.slot (slotOf k odd) with progress := some { p with phase := .halting } } ∧
          ∀ j, j ≠ slotOf k odd → t.slot j = s.slot j) ∧
      (∀ (start : Byte) (crc : Word16), start ≠ 0xFF → start ≠ 0xFE ∨ crc ≠ cardCrc data →
        ∃ t : State, exec (.blockPacket k start data crc) s = .next t.grantAll ∧ OnlyCards s t ∧ Quiet s t ∧ HaltSent k odd s t ∧
          t.slot (slotOf k odd) = { s.slot (slotOf k odd) with
            lastError := some .blockCheck, progress := some { p with phase := .halting } } ∧
          ∀ j, j ≠ slotOf k odd → t.slot j = s.slot j)) ∧
    (∀ left : Nat, (s.cardLink k).work = .blocks odd left → (s.cardLink k).blockWait ≠ none →
      ∃ t : State, exec (.blockWaitExpiry k) s = .next t.grantAll ∧ OnlyCards s t ∧ Quiet s t ∧ HaltSent k odd s t ∧
        t.slot (slotOf k odd) = { s.slot (slotOf k odd) with
          lastError := some .blockTimeout, progress := some { p with phase := .halting } } ∧
        (∀ j, j ≠ slotOf k odd → t.slot j = s.slot j)) ∧
    (∀ (index : Nat) (data : List Byte) (b : Byte) (w : Word32) (void : Bool),
      s.store.port.busy = some (.block k n index data void) → f.state = .filling → f.origin = .card (slotOf k odd) b w →
      ∃ t : State, exec (.blockWriteComplete k) s = .next t.grantAll ∧ OnlyImages s t ∧ Quiet s t ∧
        t.store.mem = writeFrameBytes s.store.mem f.extent (index * 512) data ∧
        t.store = { s.store with mem := t.store.mem, frames := t.store.frames, port := { s.store.port with busy := none } } ∧
        (∀ m, m ≠ n → t.frame m = s.frame m) ∧
        (p.written + 1 < p.blocks → t.frame n = some f ∧
          t.slot (slotOf k odd) = { s.slot (slotOf k odd) with progress := some { p with written := p.written + 1 } }) ∧
        (p.blocks ≤ p.written + 1 → t.frame n = some { f with state := .ready } ∧ frameFlag n ∈ t.link.flags ∧
          n ∉ (t.slot (slotOf k odd)).importQueue ∧ (t.slot (slotOf k odd)).progress = none ∧
          (t.slot (slotOf k odd)).failedImports = 0))

/-! ### The order book -/

/-- OPEN ORDER refuses a station above 3 or a priority other than STANDARD and EXPRESS, and a full Order Table; otherwise the lowest free
number is created OPEN without lines, next line number 1, with the reprint allowance and the idle deadline in force and the next receipt
code. That code is the first, from the code seed where no code was issued yet and otherwise from the last code issued plus 7919 modulo
1,000,000, in steps of 7919 modulo 1,000,000, that no present order holds. -/
def Obligations.OpenOrderCreatesAnEmptyOrder : Prop :=
  ∀ (station priority : Byte) (s : State), Reaches (.openOrder station priority) s →
    (3 < station.toNat ∨ 1 < priority.toNat → OnlyAnswers (.openOrder station priority) s .badArgument []) ∧
    (∀ st : Fin 4, station.toNat = st.val → priority.toNat ≤ 1 →
      ((∀ n, n < 64 → s.order n ≠ none) → OnlyAnswers (.openOrder station priority) s .tableFull []) ∧
      (∀ first, first = (match s.book.lastCode with
            | none => s.params.codeSeed
            | some c => (c + 7919) % 1000000) →
        ∀ code : Nat → Nat, (∀ k, code k = if k = 0 then first else (first + 7919 * k) % 1000000) →
        ∃ k, k ≤ s.book.orders.length ∧ s.nextCode = code k ∧ (∀ j, j < k → ∃ e ∈ s.book.orders, e.2.receiptCode = code j) ∧
          (first < 1000000 → s.book.orders.length < 1000000 → ∀ e ∈ s.book.orders, e.2.receiptCode ≠ s.nextCode)) ∧
      ∀ n, n < 64 → s.order n = none → (∀ j, j < n → s.order j ≠ none) →
        ∃ t : State, exec (.openOrder station priority) s = .next t ∧ t = { s with link := t.link, book := t.book } ∧
          Finishes (.openOrder station priority) .ok [BitVec.ofNat 8 n, BitVec.ofNat 8 (s.nextCode / 16777216),
            BitVec.ofNat 8 (s.nextCode / 65536), BitVec.ofNat 8 (s.nextCode / 256), BitVec.ofNat 8 s.nextCode] s t ∧
          orderFlag n ∈ t.link.flags ∧ t.book = { s.book with orders := t.book.orders, lastCode := some s.nextCode } ∧
          (∀ m, m ≠ n → t.order m = s.order m) ∧
          t.order n = some
            { receiptCode := s.nextCode, station := st, priority := if priority = 0 then .standard else .express, state := .open
              lines := [], nextLine := some 1, reprintAllowance := s.params.reprintAllowance, admission := none, valueDue := 0
              valueAuthorized := 0, valueDelivered := 0, valueCaptured := 0, tender := none, cancelRequested := false
              lastOutcome := none, finish := none
              idleDeadline := if s.params.idleLimit = 0 then none else some (s.params.idleLimit * 1000) })

/-- ADD LINE is refused by the first of its checks that fails: the order, its state, the line arguments, the next line number, 32 lines, the
frame, the product, 999,999 units. Otherwise the line is added under the next line number at the product's price, the value due rises by its
quantity times that price, the frame's reference count rises and the idle deadline starts afresh. -/
def Obligations.AddLineCitesTheFrame : Prop :=
  ∀ (order : Byte) (frame : Word16) (product quantity fit : Byte) (s : State),
    Reaches (.addLine order frame product quantity fit) s →
    (63 < order.toNat → OnlyAnswers (.addLine order frame product quantity fit) s .badArgument []) ∧
    (order.toNat ≤ 63 → s.order order.toNat = none → OnlyAnswers (.addLine order frame product quantity fit) s .noSuchRecord []) ∧
    (∀ o, order.toNat ≤ 63 → s.order order.toNat = some o →
      (o.state ≠ .open → OnlyAnswers (.addLine order frame product quantity fit) s .wrongState []) ∧
      (o.state = .open →
        1023 < frame.toNat ∨ 15 < product.toNat ∨ quantity.toNat = 0 ∨ 99 < quantity.toNat ∨ 2 < fit.toNat →
        OnlyAnswers (.addLine order frame product quantity fit) s .badArgument []) ∧
      (∀ (p : Fin 16) (m : Fit), o.state = .open → frame.toNat ≤ 1023 → product.toNat = p.val → 1 ≤ quantity.toNat →
        quantity.toNat ≤ 99 → toFit fit = some m →
        (o.nextLine = none ∨ 32 ≤ o.lines.length → OnlyAnswers (.addLine order frame product quantity fit) s .limit []) ∧
        (∀ k, o.nextLine = some k → o.lines.length < 32 →
          ((∀ f, s.frame frame.toNat = some f → f.state ≠ .ready ∨ f.releasePending = true) →
            OnlyAnswers (.addLine order frame product quantity fit) s .frameNotReady []) ∧
          (∀ f, s.frame frame.toNat = some f → f.state = .ready → f.releasePending = false →
            (s.book.prices[p].enabled = false → OnlyAnswers (.addLine order frame product quantity fit) s .productDisabled []) ∧
            (s.book.prices[p].enabled = true → 999999 < o.valueDue + quantity.toNat * s.book.prices[p].price →
              OnlyAnswers (.addLine order frame product quantity fit) s .limit []) ∧
            (s.book.prices[p].enabled = true → o.valueDue + quantity.toNat * s.book.prices[p].price ≤ 999999 →
              ∃ t : State, exec (.addLine order frame product quantity fit) s = .next t ∧
                t = { s with link := t.link, book := t.book, store := t.store } ∧
                Finishes (.addLine order frame product quantity fit) .ok (BitVec.ofNat 8 k ::
                  byte4 (o.valueDue + quantity.toNat * s.book.prices[p].price)) s t ∧
                orderFlag order.toNat ∈ t.link.flags ∧ frameFlag frame.toNat ∈ t.link.flags ∧
                t.order order.toNat = some { o with
                  lines := o.lines ++ [{
                    number := k, frame := frame.toNat, product := p, unitPrice := s.book.prices[p].price, fit := m
                    quantity := quantity.toNat, delivered := 0, failed := 0, withdrawn := 0, inFlight := 0, reprintsUsed := 0
                    lastFault := none, stopped := false }]
                  nextLine := if k < 255 then some (k + 1) else none
                  valueDue := o.valueDue + quantity.toNat * s.book.prices[p].price
                  idleDeadline := if s.params.idleLimit = 0 then none else some (s.params.idleLimit * 1000) } ∧
                (∀ n, n ≠ order.toNat → t.order n = s.order n) ∧
                t.book = { s.book with orders := t.book.orders } ∧
                t.frame frame.toNat = some { f with references := f.references + 1 } ∧
                (∀ n, n ≠ frame.toNat → t.frame n = s.frame n) ∧
                t.store = { s.store with frames := t.store.frames })))))

/-- CHANGE LINE and REMOVE LINE act on a line of an OPEN order. CHANGE LINE is refused by the first of its checks that fails: the order, its
state, the line number 0 and the line arguments, a line that is not there, another frame that cannot be cited, another product that is
disabled, 999,999 units. Otherwise it replaces the frame, product, quantity and fit mode: the unit price stays with the product and is
otherwise the new product's, and the reference moves from the old frame to another one. REMOVE LINE is refused alike for an order number
above 63, an absent order, another state, the line number 0 and a line that is not there, and otherwise takes the line out and lowers the
reference count of its frame. The value due follows and the idle deadline starts afresh. -/
def Obligations.ChangeAndRemoveLineEditAnOpenOrder : Prop :=
  ∀ (order line : Byte) (s : State),
    (∀ (frame : Word16) (product quantity fit : Byte), Reaches (.changeLine order line frame product quantity fit) s →
      (63 < order.toNat → AnswersAndGrants (.changeLine order line frame product quantity fit) s .badArgument []) ∧
      (order.toNat ≤ 63 → s.order order.toNat = none →
        AnswersAndGrants (.changeLine order line frame product quantity fit) s .noSuchRecord []) ∧
      (∀ o, order.toNat ≤ 63 → s.order order.toNat = some o →
        (o.state ≠ .open → AnswersAndGrants (.changeLine order line frame product quantity fit) s .wrongState []) ∧
        (o.state = .open → line = 0 ∨ 1023 < frame.toNat ∨ 15 < product.toNat ∨ quantity.toNat = 0 ∨ 99 < quantity.toNat ∨ 2 < fit.toNat →
          AnswersAndGrants (.changeLine order line frame product quantity fit) s .badArgument []) ∧
        (∀ (p : Fin 16) (m : Fit), o.state = .open → line ≠ 0 → frame.toNat ≤ 1023 → product.toNat = p.val → 1 ≤ quantity.toNat →
          quantity.toNat ≤ 99 → toFit fit = some m →
          (o.line line.toNat = none → AnswersAndGrants (.changeLine order line frame product quantity fit) s .noSuchRecord []) ∧
          (∀ l, o.line line.toNat = some l →
            (frame.toNat ≠ l.frame → (∀ f, s.frame frame.toNat = some f → f.state ≠ .ready ∨ f.releasePending = true) →
              AnswersAndGrants (.changeLine order line frame product quantity fit) s .frameNotReady []) ∧
            (frame.toNat = l.frame ∨ (∃ f, s.frame frame.toNat = some f ∧ f.state = .ready ∧ f.releasePending = false) →
              (p ≠ l.product → s.book.prices[p].enabled = false →
                AnswersAndGrants (.changeLine order line frame product quantity fit) s .productDisabled []) ∧
              (p = l.product ∨ s.book.prices[p].enabled = true →
                ∀ new : OrderLine, new = { l with
                    frame := frame.toNat, product := p, quantity := quantity.toNat, fit := m
                    unitPrice := if p = l.product then l.unitPrice else s.book.prices[p].price } →
                  (999999 < linesDue (o.setLine new).lines →
                    AnswersAndGrants (.changeLine order line frame product quantity fit) s .limit []) ∧
                  (linesDue (o.setLine new).lines ≤ 999999 →
                    ∃ t : State, exec (.changeLine order line frame product quantity fit) s = .next t.grantAll ∧
                      Finishes (.changeLine order line frame product quantity fit) .ok (byte4 (linesDue (o.setLine new).lines)) s t ∧
                        orderFlag order.toNat ∈ t.link.flags ∧
                      t.order order.toNat = some { o.setLine new with
                        valueDue := linesDue (o.setLine new).lines
                        idleDeadline := if s.params.idleLimit = 0 then none else some (s.params.idleLimit * 1000) } ∧
                      (∀ n, n ≠ order.toNat → t.order n = s.order n) ∧ t.book = { s.book with orders := t.book.orders } ∧
                      t.store.mem = s.store.mem ∧
                      (frame.toNat = l.frame → t = { s with link := t.link, book := t.book }) ∧
                      (∀ f g, frame.toNat ≠ l.frame → s.frame frame.toNat = some f → s.frame l.frame = some g →
                        g.releasePending = false →
                        t = { s with link := t.link, book := t.book, store := { s.store with frames := t.store.frames } } ∧
                        t.frame frame.toNat = some { f with references := f.references + 1 } ∧
                        t.frame l.frame = some { g with references := g.references - 1 } ∧
                        ∀ n, n ≠ frame.toNat → n ≠ l.frame → t.frame n = s.frame n)))))))) ∧
    (Reaches (.removeLine order line) s → 63 < order.toNat → AnswersAndGrants (.removeLine order line) s .badArgument []) ∧
    (Reaches (.removeLine order line) s → order.toNat ≤ 63 →
      (s.order order.toNat = none →
        exec (.removeLine order line) s = .next ((s.atWork (.removeLine order line)).respond .noSuchRecord []).grantAll) ∧
      (∀ o, s.order order.toNat = some o →
        (o.state ≠ .open →
          exec (.removeLine order line) s = .next ((s.atWork (.removeLine order line)).respond .wrongState []).grantAll) ∧
        (o.state = .open → line = 0 →
          exec (.removeLine order line) s = .next ((s.atWork (.removeLine order line)).respond .badArgument []).grantAll) ∧
        (o.state = .open → line ≠ 0 → o.line line.toNat = none →
          exec (.removeLine order line) s = .next ((s.atWork (.removeLine order line)).respond .noSuchRecord []).grantAll) ∧
        (∀ (l : OrderLine) (f : Frame), o.state = .open → line ≠ 0 → o.line line.toNat = some l → s.frame l.frame = some f →
          ∃ t : State, exec (.removeLine order line) s = .next t.grantAll ∧
            Finishes (.removeLine order line) .ok (byte4 (o.valueDue - l.quantity * l.unitPrice)) s t ∧
            orderFlag order.toNat ∈ t.link.flags ∧
            t.order order.toNat = some { o with
              lines := o.lines.filter fun m => m.number ≠ line.toNat
              valueDue := o.valueDue - l.quantity * l.unitPrice
              idleDeadline := if s.params.idleLimit = 0 then none else some (s.params.idleLimit * 1000) } ∧
            (∀ n, n ≠ order.toNat → t.order n = s.order n) ∧ t.store.mem = s.store.mem ∧
            (f.releasePending = false → t.frame l.frame = some { f with references := f.references - 1 } ∧
              (∀ n, n ≠ l.frame → t.frame n = s.frame n) ∧ t.store = { s.store with frames := t.store.frames }))))

/-- LOCK ORDER refuses an order number above 63 as BAD_ARGUMENT and an absent order as NO_SUCH_RECORD. Of an OPEN order: without lines
WRONG_STATE, with a frame that is not READY or is release-pending FRAME_NOT_READY, with a disabled product PRODUCT_DISABLED, with the
station's line not UP LINE_DOWN, with no free tender TABLE_FULL; otherwise an order that costs money is LOCKED with a new tender of the
value due, which waits for its line or is handed to it at once, and one that costs nothing enters PRINTING with the next admission sequence
and its lines on the Ready List; both without deadline and without last outcome. -/
def Obligations.LockOrderCreatesTheSale : Prop :=
  (∀ (order : Byte) (s : State), Reaches (.lockOrder order) s →
    (63 < order.toNat → AnswersAndGrants (.lockOrder order) s .badArgument []) ∧
    (order.toNat ≤ 63 → s.order order.toNat = none → AnswersAndGrants (.lockOrder order) s .noSuchRecord [])) ∧
  (∀ (order : Byte) (o : Order) (s : State), Reaches (.lockOrder order) s → order.toNat ≤ 63 → s.order order.toNat = some o →
    (o.state ≠ .open ∨ o.lines = [] →
      exec (.lockOrder order) s = .next ((s.atWork (.lockOrder order)).respond .wrongState []).grantAll) ∧
    (o.state = .open → o.lines ≠ [] →
      ((∃ l ∈ o.lines, s.citable l.frame = false) →
        exec (.lockOrder order) s = .next ((s.atWork (.lockOrder order)).respond .frameNotReady []).grantAll) ∧
      ((∀ l ∈ o.lines, s.citable l.frame = true) →
        ((∃ l ∈ o.lines, s.book.prices[l.product].enabled = false) →
          exec (.lockOrder order) s = .next ((s.atWork (.lockOrder order)).respond .productDisabled []).grantAll) ∧
        ((∀ l ∈ o.lines, s.book.prices[l.product].enabled = true) →
          ((s.line o.station).state ≠ .up →
            exec (.lockOrder order) s = .next ((s.atWork (.lockOrder order)).respond .lineDown []).grantAll) ∧
          ((s.line o.station).state = .up → 0 < o.valueDue → (∀ k, k < 32 → s.tender k ≠ none) →
            exec (.lockOrder order) s = .next ((s.atWork (.lockOrder order)).respond .tableFull []).grantAll) ∧
          (∀ k, (s.line o.station).state = .up → 0 < o.valueDue → k < 32 → s.tender k = none → (∀ j, j < k → s.tender j ≠ none) →
            ∃ t : State, exec (.lockOrder order) s = .next t.grantAll ∧
              Finishes (.lockOrder order) .ok [1, 1, BitVec.ofNat 8 k] s t ∧ orderFlag order.toNat ∈ t.link.flags ∧
              t.store = s.store ∧ t.cards = s.cards ∧ t.engines = s.engines ∧ t.thermal = s.thermal ∧ t.bus = s.bus ∧
              (s.tenders.inService[o.station] = false ∨ s.exchanging o.station ≠ none →
                t.lines = s.lines ∧
                t.order order.toNat = some { o with
                  state := .locked, tender := some k, idleDeadline := none, lastOutcome := none } ∧
                (∀ n, n ≠ order.toNat → t.order n = s.order n) ∧
                t.tender k = some (newTender order.toNat o.station o.receiptCode o.valueDue) ∧
                (∀ j, j ≠ k → t.tender j = s.tender j) ∧
                t.exchangeQueue o.station = s.exchangeQueue o.station ++ [k]) ∧
              (s.tenders.inService[o.station] = true → s.exchanging o.station = none → s.exchangeQueue o.station = [] →
                (s.line o.station).txQueue.length < 2 →
                ∃ m r, t.tender k = some r ∧ r = { newTender order.toNat o.station o.receiptCode o.valueDue with
                    exchange := .inExchange, phase := some .sending } ∧
                  m ∈ (t.line o.station).txQueue ∧ m.kind = .sale ∧ m.tender = k ∧ m.current = true ∧ m.bytes = r.message k .sale)) ∧
          ((s.line o.station).state = .up → o.valueDue = 0 →
            ∃ t : State, exec (.lockOrder order) s = .next t.grantAll ∧ Finishes (.lockOrder order) .ok [2, 0] s t ∧
              t.params = s.params ∧ t.store.mem = s.store.mem ∧ t.thermal = s.thermal ∧ t.bus = s.bus ∧
              ((∀ e, (s.engine e).link ≠ .online) → (∃ l ∈ o.lines, 0 < l.waiting) →
                t.order order.toNat = some { o with
                  state := .printing, admission := some t.book.admission, idleDeadline := none, lastOutcome := none } ∧
                (s.book.admission ≠ 4294967295 → t.book.admission = s.book.admission + 1) ∧
                t.tenders = s.tenders ∧ t.lines = s.lines ∧
                ∀ l ∈ o.lines, 0 < l.waiting → (order.toNat, l.number) ∈ t.ready))))))

/-- CANCEL ORDER refuses an order number above 63 as BAD_ARGUMENT and an absent order as NO_SUCH_RECORD; an OPEN order is ABANDONED as
CANCELLED, a LOCKED one that is cancelled already is answered and nothing more, any other LOCKED one asks its tender to be withdrawn: a sale
that still waits for the line is declined at once, a sale in exchange has WITHDRAW handed within the exchange, an enquiry about a sale
becomes one about a withdrawal, and in any other state only the request is recorded; a PRINTING one has its waiting copies withdrawn and its
pairs taken from the Ready List, and is settled where no copy of it is in flight: CLOSED without a tender, and SETTLING with the capture or
the void asked for with one; a SETTLING, CLOSED or ABANDONED one is refused. -/
def Obligations.CancelOrderEndsByState : Prop :=
  (∀ (order : Byte) (s : State), Reaches (.cancelOrder order) s →
    (63 < order.toNat → OnlyAnswers (.cancelOrder order) s .badArgument []) ∧
    (order.toNat ≤ 63 → s.order order.toNat = none → OnlyAnswers (.cancelOrder order) s .noSuchRecord [])) ∧
  (∀ (order : Byte) (o : Order) (s : State), Reaches (.cancelOrder order) s → order.toNat ≤ 63 → s.order order.toNat = some o →
    (o.state = .settling ∨ o.state = .closed ∨ o.state = .abandoned → OnlyAnswers (.cancelOrder order) s .wrongState []) ∧
    (o.state = .open →
      ∃ t : State, exec (.cancelOrder order) s = .next t ∧ t = { s with link := t.link, book := t.book } ∧
        Finishes (.cancelOrder order) .ok [] s t ∧ orderFlag order.toNat ∈ t.link.flags ∧
        t.order order.toNat = some { o with state := .abandoned, finish := some .cancelled, idleDeadline := none } ∧
        (∀ n, n ≠ order.toNat → t.order n = s.order n) ∧ t.book = { s.book with orders := t.book.orders }) ∧
    (o.state = .locked → o.cancelRequested = true → OnlyAnswers (.cancelOrder order) s .ok []) ∧
    (o.state = .locked → o.cancelRequested = false →
      ∃ t : State, exec (.cancelOrder order) s = .next t ∧ Finishes (.cancelOrder order) .ok [] s t ∧
        orderFlag order.toNat ∈ t.link.flags ∧ t.store = s.store ∧ t.cards = s.cards ∧ t.engines = s.engines ∧
        (∀ k r, o.tender = some k → s.tender k = some r →
          (r.money ≠ .requested →
            t.order order.toNat = some { o with cancelRequested := true } ∧
            t.tender k = some { r with withdrawRequested := true }) ∧
          (r.money = .requested → r.purpose = .sale → r.exchange = .waitingLine → r.order = order.toNat →
            s.tenders.inService[r.line] = false ∨ (∃ j q, j ≠ k ∧ s.tender j = some q ∧ q.line = r.line ∧ q.exchange = .inExchange) →
            t.order order.toNat = some { o with
              cancelRequested := true, tender := none, valueAuthorized := 0, lastOutcome := some .withdrawn, state := .abandoned
              finish := some .cancelled } ∧
            t.tender k = none) ∧
          (r.money = .requested → r.purpose = .sale → r.exchange = .inExchange → (s.line r.line).state = .up →
            (s.line r.line).txQueue.length < 2 →
            t.order order.toNat = some { o with cancelRequested := true } ∧
            (∀ n, n ≠ order.toNat → t.order n = s.order n) ∧
            t.tender k = some { r with
              withdrawRequested := true, purpose := .withdraw, phase := some .sending, messageBegun := false
              replyDeadline := none } ∧
            (∀ j, j ≠ k → t.tender j = s.tender j) ∧
            (∃ m, (t.line r.line).txQueue = ((s.line r.line).txQueue.map fun x =>
                if x.tender = k then { x with current := false } else x) ++ [m] ∧
              m.kind = .withdraw ∧ m.tender = k ∧ m.current = true ∧ m.bytes = r.message k .withdraw) ∧
            (∀ i, i ≠ r.line → t.line i = s.line i)) ∧
          (r.money = .requested → r.purpose = .enquire ∨ r.purpose = .withdraw →
            t.order order.toNat = some { o with cancelRequested := true } ∧
            (∀ n, n ≠ order.toNat → t.order n = s.order n) ∧
            t.tender k = some { r with
              withdrawRequested := true
              pendingPurpose := if r.purpose = .enquire ∧ r.pendingPurpose = some .sale then some .withdraw else r.pendingPurpose } ∧
            (∀ j, j ≠ k → t.tender j = s.tender j) ∧ t.lines = s.lines ∧ t.tenders = { s.tenders with tenders := t.tenders.tenders }))) ∧
    (o.state = .printing →
      ∃ t : State, exec (.cancelOrder order) s = .next t ∧ Finishes (.cancelOrder order) .ok [] s t ∧
        t.store = s.store ∧ t.cards = s.cards ∧ t.engines = s.engines ∧ (∀ q ∈ t.ready, q.1 ≠ order.toNat) ∧
        (∃ p, t.order order.toNat = some p ∧ p.cancelRequested = true ∧
          p.lines = o.lines.map fun l => { l with withdrawn := l.withdrawn + l.waiting }) ∧
        (∀ p, p = { o with cancelRequested := true, lines := o.lines.map fun l => { l with withdrawn := l.withdrawn + l.waiting } } →
          ((∃ l ∈ o.lines, 0 < l.inFlight) → OrderIs order.toNat p s t ∧ ∀ x, x ∈ t.ready ↔ x ∈ s.ready ∧ x.1 ≠ order.toNat) ∧
          ((∀ l ∈ o.lines, l.inFlight = 0) → Settles order.toNat p s t))))

/-- SET PRIORITY and RETIRE ORDER refuse an order number above 63 as BAD_ARGUMENT and an absent order as NO_SUCH_RECORD. SET PRIORITY
changes the priority of an OPEN order, whose deadline starts afresh, and of a LOCKED or PRINTING one, and refuses the other states; RETIRE
ORDER frees a CLOSED or ABANDONED order, with its tender, lowers the reference count of each frame by the lines that cited it, which retires
a release-pending frame with none left and no pin, and refuses the others; the expiry of an OPEN order's deadline abandons it as EXPIRED.
SET PRICE refuses a product above 15, an enabled byte other than 0 and 1 and a media kind outside 1 to 7, and otherwise replaces the
product's entry; no other entry changes. -/
def Obligations.PriorityRetirementExpiryAndPrices : Prop :=
  (∀ (order : Byte) (s : State),
      (∀ priority : Byte, Reaches (.setPriority order priority) s →
        (63 < order.toNat → OnlyAnswers (.setPriority order priority) s .badArgument []) ∧
        (order.toNat ≤ 63 → s.order order.toNat = none → OnlyAnswers (.setPriority order priority) s .noSuchRecord [])) ∧
      (Reaches (.retireOrder order) s →
        (63 < order.toNat → AnswersAndGrants (.retireOrder order) s .badArgument []) ∧
        (order.toNat ≤ 63 → s.order order.toNat = none → AnswersAndGrants (.retireOrder order) s .noSuchRecord []))) ∧
  (∀ (order : Byte) (o : Order) (s : State), order.toNat ≤ 63 → s.order order.toNat = some o →
      (∀ priority : Byte, Reaches (.setPriority order priority) s →
        (1 < priority.toNat → OnlyAnswers (.setPriority order priority) s .badArgument []) ∧
        (∀ p, toPriority priority = some p →
          (o.state = .settling ∨ o.state = .closed ∨ o.state = .abandoned →
            OnlyAnswers (.setPriority order priority) s .wrongState []) ∧
          (o.state = .open ∨ o.state = .locked ∨ o.state = .printing →
            ∃ t : State, exec (.setPriority order priority) s = .next t ∧ t = { s with link := t.link, book := t.book } ∧
              Finishes (.setPriority order priority) .ok [] s t ∧
              t.order order.toNat = some { o with
                priority := p
                idleDeadline := if o.state = .open then
                  (if s.params.idleLimit = 0 then none else some (s.params.idleLimit * 1000)) else o.idleDeadline } ∧
              (∀ n, n ≠ order.toNat → t.order n = s.order n) ∧ t.book = { s.book with orders := t.book.orders }))) ∧
      (Reaches (.retireOrder order) s →
        (o.state = .open ∨ o.state = .locked ∨ o.state = .printing ∨ o.state = .settling →
          exec (.retireOrder order) s = .next ((s.atWork (.retireOrder order)).respond .wrongState []).grantAll) ∧
        (o.state = .closed ∨ o.state = .abandoned →
          ∃ t : State, exec (.retireOrder order) s = .next t.grantAll ∧ Finishes (.retireOrder order) .ok [] s t ∧
            orderFlag order.toNat ∈ t.link.flags ∧ t.order order.toNat = none ∧
            (∀ n, n ≠ order.toNat → t.order n = s.order n) ∧ t.store.mem = s.store.mem ∧
            (∀ k, t.tender k = if o.tender = some k then none else s.tender k) ∧
            (∀ n f c, s.frame n = some f → c = (o.lines.countP fun l => l.frame == n) →
              ((t.frame n = none ∧ f.releasePending = true ∧ f.references ≤ c) ∨
                ∃ q, t.frame n = some q ∧ q.references = f.references - c) ∧
              (0 < c → f.references = c → f.releasePending = true → f.pins = 0 →
                f.state = .open ∨ f.state = .ready ∨ f.state = .damaged → n ∉ s.store.waitList → s.store.port.busy = none →
                (∀ a ∈ s.store.port.waiting, a.isHostOn n = false) → t.frame n = none) ∧
              (f.releasePending = false → (∀ m g, s.frame m = some g → g.releasePending = false) →
                t.frame n = some { f with references := f.references - c })))) ∧
      (∀ n : Fin 64, n.val = order.toNat → s.part.inReset = false → s.part.started = true → o.state = .open →
        o.idleDeadline ≠ none →
        ∃ t : State, exec (.idleDeadlineExpiry n) s = .next t ∧ t = { s with link := t.link, book := t.book } ∧ Quiet s t ∧
          orderFlag order.toNat ∈ t.link.flags ∧
          t.order order.toNat = some { o with state := .abandoned, finish := some .expired, idleDeadline := none } ∧
          (∀ m, m ≠ order.toNat → t.order m = s.order m) ∧ t.book = { s.book with orders := t.book.orders })) ∧
  (∀ (product enabled media : Byte) (price : Word16) (s : State), Reaches (.setPrice product enabled media price) s →
      (15 < product.toNat ∨ 1 < enabled.toNat ∨ media.toNat = 0 ∨ 7 < media.toNat →
        exec (.setPrice product enabled media price) s =
          .next ((s.atWork (.setPrice product enabled media price)).respond .badArgument []).grantAll) ∧
      (∀ p : Fin 16, product.toNat = p.val → enabled.toNat ≤ 1 → 1 ≤ media.toNat → media.toNat ≤ 7 →
        ∃ t : State, exec (.setPrice product enabled media price) s = .next t.grantAll ∧
          Finishes (.setPrice product enabled media price) .ok [] s t ∧
          t.book.prices[p] = { enabled := enabled = 1, media := media.toNat, price := price.toNat } ∧
          (∀ q : Fin 16, q ≠ p → t.book.prices[q] = s.book.prices[q]) ∧ t.params = s.params ∧ t.store.mem = s.store.mem ∧
          t.thermal = s.thermal ∧ t.bus = s.bus ∧ (∀ e, (t.engine e).setup = (s.engine e).setup)))

/-! ### Payment lines -/

/-- SET LINE refuses a line above 3 and arguments outside their ranges, answers and does nothing for the mode and enable held, and otherwise
gives the line its mode and enable: the line is UP where it is enabled and DSR is ACTIVE, and DOWN otherwise. A line that was UP has
reported LINE LOST, with cause DOWN where it is disabled and MODE otherwise, and a character on TXD is completed as it was begun; any other
line reports none. At LINE LOST the tender in exchange is placed as the table of section 5.7 gives, and at LINE UP the head of the Exchange
Queue begins its exchange, the line's unresolved tenders behind those that wait. That the line keeps the cause it reported last is the
model's own record (log entry 46); that a character on its way counts its message as begun, and that a begun SALE not sent whole counts as
sent, is the model's reading (log entries 14 and 15). READ LINE refuses a line above 3 and a clear byte other than 0 and 1, answers the
line's record and, with clear, empties its error flags and both counters. No other line changes its mode, enable, state or inputs, and no
line its input levels. The bytes of READ LINE's error flags and DSR are the model's choice (log entry 18). -/
def Obligations.SetLineAndReadLine : Prop :=
  (∀ (line : Byte) (s : State), 3 < line.toNat →
    (∀ (rate : Word32) (dataBits parity stopBits enable : Byte), Reaches (.setLine line rate dataBits parity stopBits enable) s →
      OnlyAnswers (.setLine line rate dataBits parity stopBits enable) s .badArgument []) ∧
    (∀ clear : Byte, Reaches (.readLine line clear) s → OnlyAnswers (.readLine line clear) s .badArgument [])) ∧
  (∀ (line : Byte) (i : Fin 4) (s : State), line.toNat = i.val →
    (∀ (rate : Word32) (dataBits parity stopBits enable : Byte),
      Reaches (.setLine line rate dataBits parity stopBits enable) s →
      (toLineMode rate dataBits parity stopBits = none ∨ 1 < enable.toNat →
        OnlyAnswers (.setLine line rate dataBits parity stopBits enable) s .badArgument []) ∧
      (∀ m on, toLineMode rate dataBits parity stopBits = some m → toFlag enable = some on →
        ((s.line i).mode = some m → (s.line i).enable = on →
          OnlyAnswers (.setLine line rate dataBits parity stopBits enable) s .ok []) ∧
        ((s.line i).mode ≠ some m ∨ (s.line i).enable ≠ on →
          ∃ t : State, exec (.setLine line rate dataBits parity stopBits enable) s = .next t ∧
            Finishes (.setLine line rate dataBits parity stopBits enable) .ok [] s t ∧ lineFlag i ∈ t.link.flags ∧
            (t.line i).mode = some m ∧ (t.line i).enable = on ∧
            (t.line i).state = (if on && (s.line i).dsr then .up else .down) ∧
            (t.line i).lossCause = (if (s.line i).state = .up then some (if on then .mode else .down) else (s.line i).lossCause) ∧
            ((s.line i).state = .up → (s.line i).txChar ≠ .idle → State.txd i t = State.txd i s) ∧
            (Ascending s.tenders.tenders →
              ((s.line i).state ≠ .up → on = false ∨ (s.line i).dsr = false → t.tenders = s.tenders) ∧
              ((s.line i).state ≠ .up → on = true → (s.line i).dsr = true → LineServed i s t) ∧
              ((s.line i).state = .up → on = false ∨ (s.line i).dsr = false → ExchangeLost i s t) ∧
              ((s.line i).state = .up → on = true → (s.line i).dsr = true →
                ∃ v : State, ExchangeLost i s v ∧ Ascending v.tenders.tenders ∧ (v.line i).txQueue = [] ∧ LineServed i v t)) ∧
            (∀ j, j ≠ i → (t.line j).mode = (s.line j).mode ∧ (t.line j).enable = (s.line j).enable ∧
              (t.line j).state = (s.line j).state ∧ (t.line j).dsrFilter = (s.line j).dsrFilter) ∧
            (∀ j, (t.line j).dsr = (s.line j).dsr ∧ (t.line j).dsrInput = (s.line j).dsrInput ∧ (t.line j).cts = (s.line j).cts) ∧
            t.store = s.store ∧ t.cards = s.cards ∧ t.engines = s.engines ∧ t.thermal = s.thermal ∧ t.bus = s.bus))) ∧
    (∀ clear : Byte, Reaches (.readLine line clear) s →
      (1 < clear.toNat → OnlyAnswers (.readLine line clear) s .badArgument []) ∧
      (clear = 0 → OnlyAnswers (.readLine line clear) s .ok ((s.line i).bytes i)) ∧
      (clear = 1 →
        ∃ t : State, exec (.readLine line clear) s = .next t ∧ t = { s with link := t.link, lines := t.lines } ∧
          Finishes (.readLine line clear) .ok ((s.line i).bytes i) s t ∧
          t.line i = { s.line i with
            parityError := false, framingError := false, overrunError := false, discarded := 0, unexpected := 0 } ∧
          (∀ j, j ≠ i → t.line j = s.line j))))

/-- DSR and breaks: a level that differs from the qualified one starts the filter of 10 ms and one that agrees cancels it; at its expiry DSR
takes the level, and an enabled DOWN line enters UP on ACTIVE and an UP line enters DOWN on INACTIVE; a break takes an enabled line to
BROKEN, and its end to UP with DSR ACTIVE and to DOWN otherwise. A line that leaves UP reports LINE LOST with cause DOWN or BROKEN, gives up
its messages and what it has received, and completes a character on TXD as it was begun; a line in DOWN that enters BROKEN reports nothing.
At LINE LOST the tender in exchange is placed as the table of section 5.7 gives for its purpose: at the head of the Exchange Queue, as it
was or to ENQUIRE, or DECLINED as WITHDRAWN; at LINE UP the unresolved tenders join the queue's tail and its head begins its exchange. That
the line keeps the cause it reported last is the model's own record (log entry 46); that a character on its way counts its message as begun,
and that a begun SALE not sent whole counts as sent, is the model's reading (log entries 14 and 15). -/
def Obligations.DsrAndBreaksMoveTheLine : Prop :=
  ∀ (i : Fin 4) (s : State), s.part.inReset = false →
    (∀ active : Bool, (s.line i).dsrInput ≠ active → (s.line i).mode ≠ none →
      exec (.dsrChange i active) s = .next (s.modLine i fun p => { p with
        dsrInput := active, dsrFilter := if active = p.dsr then none else some 10 })) ∧
    ((s.line i).dsrFilter ≠ none →
      ∃ t : State, exec (.dsrFilterExpiry i) s = .next t ∧ Quiet s t ∧ (t.line i).dsr = (s.line i).dsrInput ∧
        (t.line i).dsrFilter = none ∧
        (t.line i).state = (if (s.line i).dsrInput = true ∧ (s.line i).state = .down ∧ (s.line i).enable = true then .up
          else if (s.line i).dsrInput = false ∧ (s.line i).state = .up then .down else (s.line i).state) ∧
        ((s.line i).dsrInput = false → (s.line i).state = .up → (t.line i).lossCause = some .down ∧ State.txd i t = State.txd i s ∧
          (t.line i).txQueue = [] ∧ (t.line i).rxFifo = [] ∧ (t.line i).handOff = none ∧ t.tenders.inService[i] = false ∧
          (Ascending s.tenders.tenders → ExchangeLost i s t)) ∧
        ((s.line i).dsrInput = true → (s.line i).state = .down → (s.line i).enable = true → Ascending s.tenders.tenders →
          LineServed i s t) ∧
        (∀ j, j ≠ i → (t.line j).state = (s.line j).state) ∧ t.store = s.store ∧ t.cards = s.cards ∧ t.engines = s.engines) ∧
    ((s.line i).enable = true → ((s.line i).state = .down ∨ (s.line i).state = .up) →
      ∃ t : State, exec (.breakDetected i) s = .next t ∧ Quiet s t ∧ lineFlag i ∈ t.link.flags ∧ (t.line i).state = .broken ∧
        (∀ j, j ≠ i → (t.line j).state = (s.line j).state) ∧ t.store = s.store ∧ t.cards = s.cards ∧ t.engines = s.engines ∧
        ((s.line i).state = .down → t.line i = { s.line i with state := .broken } ∧ t.tenders = s.tenders) ∧
        ((s.line i).state = .up → (t.line i).lossCause = some .broken ∧ State.txd i t = State.txd i s ∧ (t.line i).txQueue = [] ∧
          (t.line i).rxFifo = [] ∧ (t.line i).handOff = none ∧ t.tenders.inService[i] = false ∧
          (Ascending s.tenders.tenders → ExchangeLost i s t))) ∧
    ((s.line i).state = .broken →
      ∃ t : State, exec (.breakEnd i) s = .next t ∧ Quiet s t ∧ lineFlag i ∈ t.link.flags ∧
        (t.line i).state = (if (s.line i).dsr then .up else .down) ∧
        (∀ j, j ≠ i → (t.line j).state = (s.line j).state) ∧ t.store = s.store ∧ t.cards = s.cards ∧ t.engines = s.engines ∧
        ((s.line i).dsr = true → t.tenders.inService[i] = true ∧ (Ascending s.tenders.tenders → LineServed i s t)) ∧
        ((s.line i).dsr = false → t.tenders = s.tenders))

/-- Received characters: a character sets the error flags its parity and stop bit call for, and in UP joins the receive FIFO of 16, or is
lost with the OVERRUN flag and the overrun mark; the assembler then takes the head: an STX opens a message, an ETX ends its body, the
nineteenth character of a body throws it away, and the check byte completes it, so that a good message is handed off and any other is
counted. The moment at which the assembler takes a character is the model's choice (log entry 5). -/
def Obligations.ReceivedCharactersBecomeMessages : Prop :=
  ∀ (i : Fin 4) (s : State), s.part.inReset = false →
    (∀ (m : LineMode) (value : Byte) (parityBit stopBit : Bool), (s.line i).mode = some m → (s.line i).enable = true →
      ((s.line i).state = .down →
        exec (.rxCharacter i value parityBit stopBit) s = .next (s.modLine i fun p => { p with
          parityError := p.parityError || m.parityWrong value parityBit, framingError := p.framingError || !stopBit })) ∧
      ((s.line i).state = .up → (s.line i).rxFifo.length < 16 →
        exec (.rxCharacter i value parityBit stopBit) s = .next (s.modLine i fun p => { p with
          parityError := p.parityError || m.parityWrong value parityBit, framingError := p.framingError || !stopBit
          rxFifo := p.rxFifo ++ [(m.dataValue value, m.parityWrong value parityBit || !stopBit)] })) ∧
      ((s.line i).state = .up → 16 ≤ (s.line i).rxFifo.length →
        exec (.rxCharacter i value parityBit stopBit) s = .next (s.modLine i fun p => { p with
          parityError := p.parityError || m.parityWrong value parityBit, framingError := p.framingError || !stopBit
          overrunError := true, overrunMark := true }))) ∧
    (∀ (c : Byte) (bad : Bool) (rest : List (Byte × Bool)), (s.line i).state = .up → (s.line i).handOff = none →
      (s.line i).rxFifo = (c, bad) :: rest → (s.line i).overrunMark = false →
      ((s.line i).assembly = .hunting → c = 0x02 → bad = false →
        exec (.assembleCharacter i) s = .next (s.modLine i fun p => { p with rxFifo := rest, assembly := .body [] false })) ∧
      ((s.line i).assembly = .hunting → (c ≠ 0x02 ∨ bad = true) →
        exec (.assembleCharacter i) s = .next (s.modLine i fun p => { p with rxFifo := rest })) ∧
      (∀ chars err, (s.line i).assembly = .body chars err →
        (c = 0x03 → bad = false →
          exec (.assembleCharacter i) s = .next (s.modLine i fun p => { p with rxFifo := rest, assembly := .check chars err })) ∧
        (c = 0x02 → bad = false →
          exec (.assembleCharacter i) s = .next (s.modLine i fun p => { p with
            rxFifo := rest, assembly := .body [] false, discarded := if p.discarded < 255 then p.discarded + 1 else p.discarded })) ∧
        (((c ≠ 0x02 ∧ c ≠ 0x03) ∨ bad = true) → chars.length < 18 →
          exec (.assembleCharacter i) s = .next (s.modLine i fun p => { p with
            rxFifo := rest, assembly := .body (chars ++ [c]) (err || bad) })) ∧
        (((c ≠ 0x02 ∧ c ≠ 0x03) ∨ bad = true) → 18 ≤ chars.length →
          exec (.assembleCharacter i) s = .next (s.modLine i fun p => { p with
            rxFifo := rest, assembly := .hunting
            discarded := if p.discarded < 255 then p.discarded + 1 else p.discarded }))) ∧
      (∀ chars err, (s.line i).assembly = .check chars err →
        (∀ r, judgeMessage chars c (err || bad) = some r →
          exec (.assembleCharacter i) s = .next (s.modLine i fun p => { p with
            rxFifo := rest, assembly := .hunting, handOff := some r })) ∧
        (judgeMessage chars c (err || bad) = none →
          exec (.assembleCharacter i) s = .next (s.modLine i fun p => { p with
            rxFifo := rest, assembly := .hunting
            discarded := if p.discarded < 255 then p.discarded + 1 else p.discarded }))))

/-- Sending: CTS active lets the due character begin, and inactive starts the wait of 2000 ms; each character that ends makes the next due,
and the last one reports the message sent, so that its tender awaits the reply; the wait's expiry abandons the messages, and a sale so
abandoned is enquired about. On TXD a character is a low start bit, its data bits least significant first, a parity bit that makes the ones
among both even or odd unless the parity is NONE, and high stop bits, as many as the mode gives; with none being sent TXD is at rest. A
character whose message has been given up is completed, and then what is due may begin. That a character on its way counts as begun is the
model's reading (log entry 14). -/
def Obligations.CharactersAreSentUnderCts : Prop :=
  ∀ (i : Fin 4) (s : State), s.part.inReset = false →
    (∀ active : Bool, (s.line i).cts ≠ active →
      exec (.ctsChange i active) s = .next (s.modLine i fun p =>
        if p.state = .up ∧ p.txQueue ≠ [] ∧ p.txChar = .idle then
          if active then { p with cts := true, txChar := .own, ctsWait := none }
          else { p with cts := false, ctsWait := some (p.ctsWait.getD 2000) }
        else { p with cts := active })) ∧
    ((s.line i).txChar = .idle → State.txd i s = []) ∧
    (∀ mode m rest b, (s.line i).txChar = .own → (s.line i).mode = some mode → (s.line i).txQueue = m :: rest →
      m.bytes[(s.line i).txSent]? = some b →
      ∃ bits parity, State.txd i s = false :: (bits ++ parity ++ List.replicate mode.stopBits true) ∧
        bits = (List.range mode.dataBits).map (fun k => b.getLsbD k) ∧
        (mode.parity = .none → parity = []) ∧
        (mode.parity = .even → parity.length = 1 ∧ (bits ++ parity).count true % 2 = 0) ∧
        (mode.parity = .odd → parity.length = 1 ∧ (bits ++ parity).count true % 2 = 1)) ∧
    (∀ levels, (s.line i).txChar = .orphan levels → State.txd i s = levels ∧
      exec (.txCharacterEnd i) s = .next (s.modLine i fun p =>
        if p.state = .up ∧ p.txQueue ≠ [] then
          if p.cts then { p with txChar := .own, ctsWait := none }
          else { p with txChar := .idle, ctsWait := some (p.ctsWait.getD 2000) }
        else { p with txChar := .idle })) ∧
    (∀ m rest, (s.line i).state = .up → (s.line i).txChar = .own → (s.line i).txQueue = m :: rest →
      ((s.line i).txSent + 1 < m.bytes.length →
        exec (.txCharacterEnd i) s = .next (s.modLine i fun p => { p with
          txSent := p.txSent + 1
          txChar := if p.cts then .own else .idle
          ctsWait := if p.cts then none else some (p.ctsWait.getD 2000) })) ∧
      (∀ r, m.bytes.length ≤ (s.line i).txSent + 1 → m.current = true → s.tender m.tender = some r → r.exchange = .inExchange →
        r.line = i →
        ∃ t : State, exec (.txCharacterEnd i) s = .next t ∧ Quiet s t ∧ (t.line i).txQueue = rest ∧ (t.line i).txSent = 0 ∧
          orderFlag r.order ∈ t.link.flags ∧
          t.tender m.tender = some { r with
            phase := some .awaiting
            messageBegun := true
            saleSent := r.saleSent || decide (m.kind = .sale)
            replyDeadline := some (1000 * if r.purpose = .sale then s.params.saleReplyLimit else s.params.replyLimit) } ∧
          (∀ k, k ≠ m.tender → t.tender k = s.tender k) ∧ (∀ j, j ≠ i → t.line j = s.line j) ∧
          t.store = s.store ∧ t.book = s.book ∧ t.cards = s.cards ∧ t.engines = s.engines)) ∧
    ((s.line i).ctsWait ≠ none →
      ∃ t : State, exec (.ctsWaitExpiry i) s = .next t ∧ Quiet s t ∧
        t.store = s.store ∧ t.cards = s.cards ∧ t.engines = s.engines ∧ t.thermal = s.thermal ∧ t.bus = s.bus ∧
        (∀ m r, (s.line i).txQueue = [m] → m.current = true → m.kind = .sale → s.tender m.tender = some r →
          r.exchange = .inExchange → r.line = i → r.purpose = .sale → (s.line i).state = .up →
          ∃ p q, t.tender m.tender = some p ∧ p.purpose = .enquire ∧ p.pendingPurpose = some .sale ∧ p.phase = some .sending ∧
            p.saleSent = (r.saleSent || decide (0 < (s.line i).txSent) || decide ((s.line i).txChar = .own)) ∧
            (t.line i).txQueue = [q] ∧ q.kind = .enquire ∧ q.tender = m.tender))

/-! ### Tenders -/

/-- The replies to a sale, a withdrawal, a capture and a void. DECLINED and CANCELLED to a sale or a withdrawal, WITHDRAWN and BUSY to a
withdrawal, and the fifth BUSY to a sale free the tender, and the LOCKED order is OPEN again with that outcome, or ABANDONED where it is
cancelled. An earlier BUSY to a sale counts and the tender joins the tail of its queue. CAPTURED of the amount asked closes the SETTLING
order; CAPTURED of another amount, and DECLINED to a capture or a void, begin an enquiry about it. VOIDED ends the tender and its order
without money. A reply that is not expected, since its tender is absent, not in exchange on this line or of a purpose that does not expect
it, is counted by its line and nothing more. That a reply command can stand for the whole message is the model's choice (log entry 2), and
so is that a tender VOIDED keeps its purpose and its pending purpose (log entry 32). -/
def Obligations.RepliesDecideTheTender : Prop :=
  (∀ (i : Fin 4) (t : Fin 32) (r : Tender) (o : Order) (reason amount : Nat) (s : State), s.order r.order = some o →
    (∀ c q k cause, (c, q, k, cause) ∈
        [(Instr.declined i t reason, Reply.declined reason, OutKind.sale, TenderOutcome.declined),
          (.declined i t reason, .declined reason, .withdraw, .declined), (.cancelled i t, .cancelled, .sale, .customer),
          (.cancelled i t, .cancelled, .withdraw, .customer), (.withdrawn i t, .withdrawn, .withdraw, .withdrawn),
          (.busy i t, .busy, .withdraw, .withdrawn)] →
      Hears i t q r s → r.purpose = k → o.state = .locked →
      ∃ u : State, exec c s = .next u ∧ DeclinedAs t.val r o cause s u ∧
        (q = .declined reason → (u.line i).lastDecline = some reason)) ∧
    (Hears i t .busy r s → r.purpose = .sale →
      (4 ≤ r.busyCount → o.state = .locked →
        ∃ u : State, exec (.busy i t) s = .next u ∧ DeclinedAs t.val r o .terminalBusy s u) ∧
      (r.busyCount < 4 →
        ∃ u : State, exec (.busy i t) s = .next u ∧ OnlyMoney s u ∧ Quiet s u ∧ orderFlag r.order ∈ u.link.flags ∧
          QueuedAfresh i t.val .sale { r with busyCount := r.busyCount + 1, saleSent := false } s u)) ∧
    (Hears i t (.captured amount) r s → r.purpose = .capture → r.amountToCapture = some amount → o.state = .settling →
      ∃ u : State, exec (.captured i t amount) s = .next u ∧ MoneyOf t.val r.order s u ∧
        u.tender t.val = some { r with
          money := .captured, pendingPurpose := none, exchange := .none, phase := none, replyDeadline := none } ∧
        u.order r.order = some { o with valueCaptured := amount, state := .closed, finish := some .captured }) ∧
    (∀ c q k, (c, q, k) ∈
        [(Instr.declined i t reason, Reply.declined reason, OutKind.capture), (.declined i t reason, .declined reason, .void),
          (.captured i t amount, .captured amount, .capture)] →
      Hears i t q r s → r.purpose = k → (q = .captured amount → r.amountToCapture ≠ some amount) →
      (s.line i).state = .up → (s.line i).txQueue = [] →
      ∃ u : State, exec c s = .next u ∧ HandsOver i t.val .enquire { r with purpose := .enquire, pendingPurpose := some k } s u ∧
        (q = .declined reason → (u.line i).lastDecline = some reason)) ∧
    (Hears i t .voided r s → r.purpose = .void → o.state = .settling ∨ o.state = .locked →
      ∃ u : State, exec (.voided i t) s = .next u ∧ VoidedAs t.val r o s u)) ∧
  (∀ (i : Fin 4) (t : Fin 32) (amount : Nat) (reference : List Byte) (status : NoMoney) (q : Reply) (s : State),
    s.hears i t.val q = true →
    (∀ r, s.tender t.val = some r → r.exchange ≠ .inExchange ∨ r.line ≠ i ∨ expects r.purpose q = false) →
    ∃ u : State, u = ((s.modLine i fun p => { p with handOff := none }).modLine i fun p =>
        { p with unexpected := if p.unexpected < 255 then p.unexpected + 1 else p.unexpected }) ∧
      (∀ c, (c, q) ∈ [(Instr.declined i t amount, Reply.declined amount), (.cancelled i t, .cancelled), (.withdrawn i t, .withdrawn),
          (.captured i t amount, .captured amount), (.voided i t, .voided), (.busy i t, .busy),
          (.stateNoneDeclinedVoided i t status, .stateNone status), (.statePending i t, .statePending),
          (.stateCaptured i t amount, .stateCaptured amount)] → exec c s = .next u) ∧
      ∀ c, (c, q) ∈ [(Instr.approved i t amount reference, Reply.approved amount reference),
          (.stateApproved i t amount reference, .stateApproved amount reference)] →
        (∀ e, (s.engine e).link ≠ .online) → exec c s = .next u.grantAll) ∧
  (∀ q : Reply,
    (expects .sale q = true ↔ (∃ a f, q = .approved a f) ∨ (∃ d, q = .declined d) ∨ q = .cancelled ∨ q = .busy) ∧
    (expects .withdraw q = true ↔
      q = .withdrawn ∨ (∃ a f, q = .approved a f) ∨ (∃ d, q = .declined d) ∨ q = .cancelled ∨ q = .busy) ∧
    (expects .capture q = true ↔ (∃ a, q = .captured a) ∨ ∃ d, q = .declined d) ∧
    (expects .void q = true ↔ q = .voided ∨ ∃ d, q = .declined d) ∧
    (expects .enquire q = true ↔
      (∃ k, q = .stateNone k) ∨ q = .statePending ∨ (∃ a f, q = .stateApproved a f) ∨ ∃ a, q = .stateCaptured a))

/-- An approval, by APPROVED to a sale or a withdrawal or by STATE APPROVED to an enquiry about one, while no engine is ONLINE. Of the whole
amount, with no withdrawal asked for and a copy that waits: the tender is APPROVED at rest with its amount and reference, and the LOCKED
order enters PRINTING with that value authorized and an admission sequence. Where every copy that waits has lost its frame, the order is
settled at once: those copies fail, it is SETTLING, and the tender joins its queue for a VOID. A short one, and one after a withdraw
request: the tender is APPROVED and joins the tail of its queue for a VOID, a short one marks it, and the order stays LOCKED with that value
authorized, a short one with last outcome SHORT unless it is cancelled. STATE APPROVED to an enquiry about a capture or a void: of the
amount approved, it takes the reference and sends the capture or void again, or at the third enquiry leaves the tender unresolved; of
another amount, it keeps the amount reported, sets MONEY_MISMATCH and leaves the tender unresolved. That a reply command can stand for the
whole message is the model's choice (log entry 2), and so is that a tender left unresolved keeps its purpose and its pending purpose: the
rules are silent there (log entry 32). -/
def Obligations.ApprovalsSendTheOrderToPrinting : Prop :=
  ∀ (i : Fin 4) (t : Fin 32) (a : Nat) (reference : List Byte) (r : Tender) (o : Order) (s : State),
    s.order r.order = some o → (∀ e, (s.engine e).link ≠ .online) →
    (∀ c q, Approves i t a reference r c q → Hears i t q r s → o.state = .locked →
      (o.cancelRequested = false → r.withdrawRequested = false → r.shortApproval = false → r.amountRequested ≤ a →
        (∃ l ∈ o.lines, 0 < l.waiting ∧ s.frameReady l.frame = true) →
        ∃ u : State, exec c s = .next u.grantAll ∧ OnlyMoney s u ∧ Quiet s u ∧ orderFlag r.order ∈ u.link.flags ∧
          u.tender t.val = some { r with
            amountApproved := a, reference := some reference, money := .approved, pendingPurpose := none
            exchange := .none, phase := none, replyDeadline := none } ∧
          (∃ p, u.order r.order = some p ∧ p.state = .printing ∧ p.valueAuthorized = a ∧ p.admission = some u.book.admission ∧
            p.idleDeadline = none) ∧
          (∀ k, k ≠ t.val → u.tender k = s.tender k)) ∧
      (o.cancelRequested = false → r.withdrawRequested = false → r.shortApproval = false → r.amountRequested ≤ a →
        (∀ l ∈ o.lines, l.inFlight = 0 ∧ (l.waiting = 0 ∨ s.frameReady l.frame = false)) → o.tender = some t.val → o.valueDelivered = 0 →
        ∃ u : State, exec c s = .next u.grantAll ∧ OnlyMoney s u ∧ Quiet s u ∧ orderFlag r.order ∈ u.link.flags ∧
          u.order r.order = some { o with
            state := .settling, valueAuthorized := a, admission := some u.book.admission, idleDeadline := none
            lines := o.lines.map fun l => if s.frameReady l.frame then l else
              { l with failed := l.failed + l.waiting, stopped := true, lastFault := some .storeError } } ∧
          (∀ x ∈ u.ready, x.1 ≠ r.order) ∧
          QueuedAfresh i t.val .void { r with
            amountApproved := a, reference := some reference, money := .approved, purpose := .void, pendingPurpose := none
            enquiryCount := 0, pendingAnswers := 0 } s u) ∧
      (r.withdrawRequested = true ∨ r.shortApproval = true ∨ a < r.amountRequested →
        (a < r.amountRequested ∨ (o.cancelRequested = true ∧ o.tender = some t.val)) →
        ∃ u : State, exec c s = .next u.grantAll ∧ OnlyMoney s u ∧ Quiet s u ∧ orderFlag r.order ∈ u.link.flags ∧
          QueuedAfresh i t.val .void { r with
            amountApproved := a, reference := some reference, money := .approved, purpose := .void, pendingPurpose := none
            enquiryCount := 0, pendingAnswers := 0
            shortApproval := r.shortApproval || decide (a < r.amountRequested) } s u ∧
          (a < r.amountRequested → u.order r.order = some { o with
            valueAuthorized := a, lastOutcome := if o.cancelRequested then o.lastOutcome else some .short }) ∧
          (r.amountRequested ≤ a → u.order r.order = some { o with valueAuthorized := a }) ∧
          (∀ m, m ≠ r.order → u.order m = s.order m))) ∧
    (∀ k, k = .capture ∨ k = .void → Hears i t (.stateApproved a reference) r s → r.purpose = .enquire → r.pendingPurpose = some k →
      (a = r.amountApproved → r.enquiryCount < 2 →
        ∃ u : State, exec (.stateApproved i t a reference) s = .next u.grantAll ∧ OnlyMoney s u ∧ Quiet s u ∧
          orderFlag r.order ∈ u.link.flags ∧ (∀ m, u.order m = s.order m) ∧
          QueuedAfresh i t.val k { r with
            reference := some reference, enquiryCount := r.enquiryCount + 1, purpose := k, pendingPurpose := none } s u) ∧
      (o.state = .locked ∨ o.state = .printing ∨ o.state = .settling →
        (a = r.amountApproved → 2 ≤ r.enquiryCount →
          ∃ u : State, exec (.stateApproved i t a reference) s = .next u.grantAll ∧
            LeftUnresolved t.val { r with reference := some reference, enquiryCount := r.enquiryCount + 1 } s u) ∧
        (a ≠ r.amountApproved →
          ∃ u : State, exec (.stateApproved i t a reference) s = .next u.grantAll ∧ u.hasCondition .moneyMismatch = true ∧
            partFlag ∈ u.link.flags ∧ LeftUnresolved t.val { r with reportedAmount := some a } s u)))

/-- The answers to an enquiry. Without money (NONE, DECLINED or VOIDED): about a sale the tender is declined as DECLINED and about a
withdrawal as WITHDRAWN; about a capture it is declined as DECLINED, or VOIDED where the answer says so; about a void it is VOIDED. PENDING:
about a sale it awaits its reply anew with one more pending answer, and at the third WITHDRAW is handed; about a withdrawal WITHDRAW is
handed again, and after three the tender is left unresolved; about a capture or a void it counts as an unanswered enquiry, which is sent
again, and at the third leaves the tender unresolved. CAPTURED of the amount asked closes the SETTLING order, and any other CAPTURED keeps
the amount reported, sets MONEY_MISMATCH and leaves the tender unresolved. That a reply command can stand for the whole message is the
model's choice (log entry 2), and so is that a tender left unresolved, and one VOIDED by the answer, keeps its purpose ENQUIRE and its
pending purpose: the rules are silent there (log entry 32). -/
def Obligations.EnquiryAnswersSettleTheTender : Prop :=
  ∀ (i : Fin 4) (t : Fin 32) (r : Tender) (o : Order) (s : State), s.order r.order = some o → r.purpose = .enquire →
    (∀ status, Hears i t (.stateNone status) r s → o.state = .locked ∨ o.state = .settling →
      (r.pendingPurpose = some .sale →
        ∃ u : State, exec (.stateNoneDeclinedVoided i t status) s = .next u ∧ DeclinedAs t.val r o .declined s u) ∧
      (r.pendingPurpose = some .withdraw →
        ∃ u : State, exec (.stateNoneDeclinedVoided i t status) s = .next u ∧ DeclinedAs t.val r o .withdrawn s u) ∧
      (r.pendingPurpose = some .capture → status ≠ .voided →
        ∃ u : State, exec (.stateNoneDeclinedVoided i t status) s = .next u ∧ DeclinedAs t.val r o .declined s u) ∧
      ((r.pendingPurpose = some .capture ∧ status = .voided) ∨ r.pendingPurpose = some .void →
        ∃ u : State, exec (.stateNoneDeclinedVoided i t status) s = .next u ∧ VoidedAs t.val r o s u)) ∧
    (Hears i t .statePending r s →
      (r.pendingPurpose = some .sale → r.pendingAnswers < 2 →
        ∃ u : State, exec (.statePending i t) s = .next u ∧ MoneyOf t.val r.order s u ∧ u.book = s.book ∧
          u.tender t.val = some { r with
            pendingAnswers := r.pendingAnswers + 1, purpose := .sale, pendingPurpose := none, phase := some .awaiting
            replyDeadline := some (s.params.saleReplyLimit * 1000) }) ∧
      ((s.line i).state = .up → (s.line i).txQueue = [] →
        (r.pendingPurpose = some .sale → 2 ≤ r.pendingAnswers →
          ∃ u : State, exec (.statePending i t) s = .next u ∧
            HandsOver i t.val .withdraw { r with pendingAnswers := 0, purpose := .withdraw, pendingPurpose := none } s u) ∧
        (r.pendingPurpose = some .withdraw → r.pendingAnswers < 3 →
          ∃ u : State, exec (.statePending i t) s = .next u ∧
            HandsOver i t.val .withdraw { r with
              pendingAnswers := r.pendingAnswers + 1, purpose := .withdraw, pendingPurpose := none } s u) ∧
        (r.pendingPurpose = some .capture ∨ r.pendingPurpose = some .void → r.enquiryCount < 2 →
          ∃ u : State, exec (.statePending i t) s = .next u ∧
            HandsOver i t.val .enquire { r with enquiryCount := r.enquiryCount + 1 } s u)) ∧
      (o.state = .locked ∨ o.state = .printing ∨ o.state = .settling →
        (r.pendingPurpose = some .withdraw → 3 ≤ r.pendingAnswers →
          ∃ u : State, exec (.statePending i t) s = .next u ∧ LeftUnresolved t.val r s u) ∧
        (r.pendingPurpose = some .capture ∨ r.pendingPurpose = some .void → 2 ≤ r.enquiryCount →
          ∃ u : State, exec (.statePending i t) s = .next u ∧
            LeftUnresolved t.val { r with enquiryCount := r.enquiryCount + 1 } s u))) ∧
    (∀ a, Hears i t (.stateCaptured a) r s →
      (r.pendingPurpose = some .capture → r.amountToCapture = some a → o.state = .settling →
        ∃ u : State, exec (.stateCaptured i t a) s = .next u ∧ MoneyOf t.val r.order s u ∧
          u.tender t.val = some { r with
            money := .captured, pendingPurpose := none, exchange := .none, phase := none, replyDeadline := none } ∧
          u.order r.order = some { o with valueCaptured := a, state := .closed, finish := some .captured }) ∧
      (r.pendingPurpose ≠ some .capture ∨ r.amountToCapture ≠ some a → o.state = .locked ∨ o.state = .printing ∨ o.state = .settling →
        ∃ u : State, exec (.stateCaptured i t a) s = .next u ∧ u.hasCondition .moneyMismatch = true ∧ partFlag ∈ u.link.flags ∧
          LeftUnresolved t.val { r with reportedAmount := some a } s u))

/-- An overdue reply to a sale, a capture, a void, or a withdrawal of a sale that was sent is enquired about; an overdue withdrawal of a
sale that was not sent declines the tender as WITHDRAWN; an overdue answer to an enquiry counts, and the enquiry is sent again, or at the
third the tender is left unresolved. ENQUIRE TENDER refuses a tender number above 31 as BAD_ARGUMENT and an absent tender as NO_SUCH_RECORD,
puts an unresolved tender back in its line's queue with fresh counts, from which an idle line in service takes it at once, and refuses any
other; WRITE OFF ORDER refuses an order number above 63, an absent order, and one without a tender as WRONG_STATE, ends an unresolved tender
as WRITTEN_OFF and the order with it, and refuses any other. That a tender left unresolved keeps its purpose and its pending purpose is the
model's choice (log entry 32). -/
def Obligations.OverdueUnresolvedAndWrittenOffTenders : Prop :=
  (∀ (b : Byte) (s : State),
    (Reaches (.enquireTender b) s →
      (31 < b.toNat → OnlyAnswers (.enquireTender b) s .badArgument []) ∧
      (b.toNat ≤ 31 → s.tender b.toNat = none → OnlyAnswers (.enquireTender b) s .noSuchRecord [])) ∧
    (Reaches (.writeOffOrder b) s →
      (63 < b.toNat → OnlyAnswers (.writeOffOrder b) s .badArgument []) ∧
      (b.toNat ≤ 63 → s.order b.toNat = none → OnlyAnswers (.writeOffOrder b) s .noSuchRecord []) ∧
      (∀ o, b.toNat ≤ 63 → s.order b.toNat = some o → (∀ k, o.tender = some k → s.tender k = none) →
        OnlyAnswers (.writeOffOrder b) s .wrongState []))) ∧
  (∀ (t : Fin 32) (r : Tender) (s : State), s.tender t.val = some r →
    (s.part.inReset = false → r.replyDeadline ≠ none → r.exchange = .inExchange →
      ((s.line r.line).state = .up → (s.line r.line).txQueue = [] →
        (r.purpose = .sale ∨ r.purpose = .capture ∨ r.purpose = .void ∨ (r.purpose = .withdraw ∧ r.saleSent = true) →
          ∃ u : State, exec (.replyDeadlineExpiry t) s = .next u ∧
            HandsOver r.line t.val .enquire { r with purpose := .enquire, pendingPurpose := some r.purpose } s u) ∧
        (r.purpose = .enquire → r.enquiryCount < 2 →
          ∃ u : State, exec (.replyDeadlineExpiry t) s = .next u ∧
            HandsOver r.line t.val .enquire { r with enquiryCount := r.enquiryCount + 1 } s u)) ∧
      (∀ o, s.exchangeQueue r.line = [] → s.order r.order = some o →
        (r.purpose = .withdraw → r.saleSent = false → o.state = .locked ∨ o.state = .settling →
          ∃ u : State, exec (.replyDeadlineExpiry t) s = .next u ∧ DeclinedAs t.val r o .withdrawn s u) ∧
        (r.purpose = .enquire → 2 ≤ r.enquiryCount → o.state = .locked ∨ o.state = .printing ∨ o.state = .settling →
          ∃ u : State, exec (.replyDeadlineExpiry t) s = .next u ∧
            LeftUnresolved t.val { r with enquiryCount := r.enquiryCount + 1 } s u))) ∧
    (∀ b : Byte, b.toNat = t.val → Reaches (.enquireTender b) s →
      (r.unresolved = false ∨ r.exchange ≠ .none → OnlyAnswers (.enquireTender b) s .wrongState []) ∧
      (r.unresolved = true → r.exchange = .none →
        ∃ u : State, exec (.enquireTender b) s = .next u ∧ Finishes (.enquireTender b) .ok [] s u ∧ OnlyMoney s u ∧
          orderFlag r.order ∈ u.link.flags ∧
          QueuedAfresh r.line t.val r.purpose { r with unresolved := false, enquiryCount := 0, pendingAnswers := 0 } s u ∧
          (s.exchanging r.line ≠ none →
            u.exchangeQueue r.line = s.exchangeQueue r.line ++ [t.val] ∧ u.book = s.book ∧
            u.tender t.val = some { r with
              unresolved := false, enquiryCount := 0, pendingAnswers := 0, exchange := .waitingLine, phase := none
              replyDeadline := none }))) ∧
    (∀ (b : Byte) (o : Order), b.toNat ≤ 63 → s.order b.toNat = some o → o.tender = some t.val → Reaches (.writeOffOrder b) s →
      ((o.state ≠ .locked ∧ o.state ≠ .settling) ∨ r.unresolved = false ∨ r.exchange ≠ .none →
        OnlyAnswers (.writeOffOrder b) s .wrongState []) ∧
      ((o.state = .locked ∨ o.state = .settling) → r.unresolved = true → r.exchange = .none →
        ∃ u : State, exec (.writeOffOrder b) s = .next u ∧ Finishes (.writeOffOrder b) .ok [] s u ∧ OnlyMoney s u ∧
          orderFlag b.toNat ∈ u.link.flags ∧ u.tender t.val = some { r with money := .writtenOff, unresolved := false } ∧
          u.order b.toNat = some { o with
            state := if o.state = .locked then .abandoned else .closed, finish := some .writtenOff } ∧
          (∀ n, n ≠ b.toNat → u.order n = s.order n))))

/-! ### Print engines, the sheet link and sheet dispatch -/

/-- A level at PRES_N that differs from the qualified presence starts the filter of 20 ms and one that agrees cancels it; at its expiry the
presence takes the level: an ABSENT engine enters HUNTING with a HELLO handed, a HUNTING one enters ABSENT, and an ONLINE one leaves ONLINE
for ABSENT with its STREAMING sheet ended and its SENT sheets UNKNOWN. That a HELLO in progress is cut when a HUNTING link enters ABSENT is
the model's choice (log entry 49), and so is that a level PRES_N has already is no event (log entry 3). -/
def Obligations.PresenceMovesTheSheetLink : Prop :=
  ∀ (e : Fin 3) (s : State),
    (∀ active : Bool,
      ((s.engine e).presInput = active → exec (.presenceChange e active) s = .next s) ∧
      ((s.engine e).presInput ≠ active → s.part.inReset = true ∨ s.part.started = false →
        exec (.presenceChange e active) s =
          .next { s with engines := s.engines.set e { s.engine e with presInput := active } }) ∧
      ((s.engine e).presInput ≠ active → s.part.inReset = false → s.part.started = true →
        exec (.presenceChange e active) s = .next { s with engines := s.engines.set e { s.engine e with
          presInput := active, presFilter := if active = (s.engine e).present then none else some 20 } })) ∧
    (s.part.inReset = false → s.part.started = true → (s.engine e).presFilter ≠ none →
      ((s.engine e).presInput = true → (s.engine e).link = .absent → (s.engine e).control = [] →
        ∃ u : State, exec (.presenceFilterExpiry e) s = .next u.grantAll ∧ u = { s with link := u.link, engines := u.engines } ∧
          Quiet s u ∧ engineFlag e ∈ u.link.flags ∧ (∀ k, k ≠ e → u.engine k = s.engine k) ∧
          u.engine e = { s.engine e with
            present := true, presFilter := none, link := .hunting, tx := .mark, rx := .hunt, helloTimer := some 500, head := none
            control := [.hello] }) ∧
      ((s.engine e).presInput = false → (s.engine e).link = .hunting →
        ∃ u : State, exec (.presenceFilterExpiry e) s = .next u.grantAll ∧ u = { s with link := u.link, engines := u.engines } ∧
          Quiet s u ∧ engineFlag e ∈ u.link.flags ∧ (∀ k, k ≠ e → u.engine k = s.engine k) ∧
          u.engine e = { s.engine e with
            present := false, presFilter := none, link := .absent, tx := .still, rx := .off, helloTimer := none, control := []
            rxBuffer := [], taken := none }) ∧
      (((s.engine e).presInput = true ∧ (s.engine e).link ≠ .absent) ∨
          ((s.engine e).presInput = false ∧ (s.engine e).link = .absent) →
        exec (.presenceFilterExpiry e) s = .next { s with engines := s.engines.set e { s.engine e with
          present := (s.engine e).presInput, presFilter := none } }.grantAll) ∧
      ((s.engine e).presInput = false → (s.engine e).link = .online →
        ∃ u : State, exec (.presenceFilterExpiry e) s = .next u.grantAll ∧ Quiet s u ∧ engineFlag e ∈ u.link.flags ∧
          (u.engine e).setup = { s.engine e with
            present := false, presFilter := none, link := .absent, lastLoss := some .absent, rx := .off, helloTimer := none
            silenceTimer := none, head := none, rxBuffer := [], taken := none
            relinkTimer := if (s.engine e).others.any (fun h => decide (h.state = SheetState.sent)) then
              some (s.params.relinkLimit * 1000) else (s.engine e).relinkTimer }.setup ∧
          (u.engine e).tx = .still ∧ (u.engine e).control = [] ∧ (u.engine e).sheetPath = none ∧ (u.engine e).credit = 0 ∧
          (u.engine e).sheets = (s.engine e).others.map (fun h => if h.state = .sent then { h with state := .unknown } else h) ∧
          (∀ k, k ≠ e → (u.engine k).setup = (s.engine k).setup) ∧ u.params = s.params ∧ u.store.mem = s.store.mem ∧
          u.thermal = s.thermal ∧ u.bus = s.bus))

/-- The timers of a sheet link: in HUNTING the hello timer hands one HELLO unless one waits or the control queue is full, and runs again; in
ONLINE the silence timer takes the link to HUNTING with cause SILENCE, no credit and a HELLO handed; the relink timer ends every UNKNOWN
sheet of the engine. An expiry acts whenever its timer runs (the model's choice, log entry 4). -/
def Obligations.TimersOfTheSheetLink : Prop :=
  ∀ (e : Fin 3) (s : State), s.part.inReset = false → s.part.started = true →
    ((s.engine e).helloTimer ≠ none → (s.engine e).link = .hunting →
      exec (.helloTimerExpiry e) s = .next { s with engines := s.engines.set e { s.engine e with
        helloTimer := some 500
        control := if (s.engine e).control.contains .hello ∨ 3 ≤ (s.engine e).control.length then (s.engine e).control
          else (s.engine e).control ++ [.hello] } }) ∧
    ((s.engine e).silenceTimer ≠ none → (s.engine e).link = .online →
      ∃ u : State, exec (.silenceTimerExpiry e) s = .next u.grantAll ∧ Quiet s u ∧ engineFlag e ∈ u.link.flags ∧
        (u.engine e).setup = { s.engine e with
          link := .hunting, lastLoss := some .silence, rx := .hunt, helloTimer := some 500, silenceTimer := none, head := none
          rxBuffer := [], taken := none
          relinkTimer := if (s.engine e).others.any (fun h => decide (h.state = SheetState.sent)) then
            some (s.params.relinkLimit * 1000) else (s.engine e).relinkTimer }.setup ∧
        (u.engine e).tx = .mark ∧ (u.engine e).control = [.hello] ∧ (u.engine e).sheetPath = none ∧ (u.engine e).credit = 0 ∧
        (u.engine e).sheets = (s.engine e).others.map (fun h => if h.state = .sent then { h with state := .unknown } else h) ∧
        (∀ k, k ≠ e → (u.engine k).setup = (s.engine k).setup) ∧ u.params = s.params ∧ u.store.mem = s.store.mem ∧
        u.thermal = s.thermal ∧ u.bus = s.bus) ∧
    ((s.engine e).relinkTimer ≠ none → (s.engine e).link ≠ .online →
      ∃ u : State, exec (.relinkTimerExpiry e) s = .next u.grantAll ∧ Quiet s u ∧ engineFlag e ∈ u.link.flags ∧
        (u.engine e).setup = { s.engine e with relinkTimer := none }.setup ∧
        (u.engine e).sheets = (s.engine e).without ((s.engine e).tagsIn .unknown) ∧
        (∀ k, k ≠ e → (u.engine k).setup = (s.engine k).setup) ∧ u.params = s.params ∧ u.store.mem = s.store.mem ∧
        u.thermal = s.thermal ∧ u.bus = s.bus)

/-- At a frame boundary the transmitter begins the head of the control queue, a HELLO with the tags of this moment, or the frame on the
sheet path, a SHEET START only with buffer credit, of which it uses one, or one mark pair; SHEET END sent whole makes its sheet SENT and its
channel IDLE. That a SHEET END acts before the next item is chosen is the model's reading (log entry 30). -/
def Obligations.TransmitterChoosesTheNextFrame : Prop :=
  ∀ (e : Fin 3) (s : State), s.part.inReset = false → s.part.started = true → (s.engine e).link ≠ .absent →
    ((∀ tag crc, (s.engine e).tx ≠ .frame (.sheetEnd tag crc)) →
      (∀ rest, (s.engine e).control = .hello :: rest →
        exec (.txFrameBoundary e) s = .next { s with engines := s.engines.set e { s.engine e with
          control := rest, tx := .frame (.hello (s.engine e).nextTag (s.engine e).firstOpen) } }.grantAll) ∧
      (∀ tag rest, (s.engine e).control = .abort tag :: rest →
        exec (.txFrameBoundary e) s = .next { s with engines := s.engines.set e { s.engine e with
          control := rest, tx := .frame (.sheetAbort tag) } }.grantAll) ∧
      ((s.engine e).control = [] →
        ((s.engine e).sheetPath = none ∨
            ((s.engine e).credit = 0 ∧ ∃ tag m how n, (s.engine e).sheetPath = some (.sheetStart tag m how n)) →
          exec (.txFrameBoundary e) s = .next { s with engines := s.engines.set e { s.engine e with tx := .mark } }.grantAll) ∧
        (∀ tag m how n, (s.engine e).sheetPath = some (.sheetStart tag m how n) → 0 < (s.engine e).credit →
          s.frameDamaged (s.engine e).channel.frame = false →
          ∃ u : State, exec (.txFrameBoundary e) s = .next u.grantAll ∧ Quiet s u ∧
            (u.engine e).tx = .frame (.sheetStart tag m how n) ∧ (u.engine e).credit = (s.engine e).credit - 1 ∧
            (u.engine e).sheets = (s.engine e).sheets ∧ (u.engine e).setup = (s.engine e).setup ∧
            (∀ k, k ≠ e → u.engine k = s.engine k) ∧ u.book = s.book ∧ u.tenders = s.tenders) ∧
        (∀ f, (s.engine e).sheetPath = some f → (∀ tag m how n, f ≠ .sheetStart tag m how n) →
          s.frameDamaged (s.engine e).channel.frame = false →
          ∃ u : State, exec (.txFrameBoundary e) s = .next u.grantAll ∧ Quiet s u ∧
            (u.engine e).tx = .frame f ∧ (u.engine e).credit = (s.engine e).credit ∧
            (u.engine e).sheets = (s.engine e).sheets ∧ (u.engine e).setup = (s.engine e).setup ∧
            (∀ k, k ≠ e → u.engine k = s.engine k) ∧ u.book = s.book ∧ u.tenders = s.tenders))) ∧
    (∀ tag crc, (s.engine e).tx = .frame (.sheetEnd tag crc) → (s.engine e).channel.phase = .finishing →
      (s.engine e).channel.sheet = some tag → (s.engine e).control = [] → (s.engine e).sheetPath = none →
      (∀ k, (s.engine k).enabled = false) →
      ∃ u : State, exec (.txFrameBoundary e) s = .next u.grantAll ∧ Quiet s u ∧
        u.engine e = { s.engine e with
          tx := .mark
          sheets := (s.engine e).sheets.map fun h => if h.tag = tag then { h with state := .sent } else h
          channel := Channel.reset } ∧
        (∀ k, k ≠ e → u.engine k = s.engine k) ∧ u.book = s.book ∧ u.tenders = s.tenders ∧ u.store.mem = s.store.mem)

/-- The receiver: a complete frame joins the receive buffer of two, or is lost as a receive fault; a receive fault sends the receiver to
HUNT and is counted, and with a sheet at risk it takes the link out of ONLINE, the overrun of the receive buffer like any other; a mark pair
sends the receiver to MARKED. FRAME TAKEN takes the oldest frame, which acts at once: one that is not well-formed is counted, one other than
READY is dropped in HUNTING, and otherwise the frame does what the command that names it does, whose own effects the statements on those
commands give. That a complete frame counts in every state of the receiver, and that the engine notes the frame taken last, are the model's
own (log entries 21 and 5). -/
def Obligations.ReceiverTakesFramesAndFaults : Prop :=
  ∀ (e : Fin 3) (s : State), s.part.inReset = false → s.part.started = true → (s.engine e).link ≠ .absent →
    (∀ (kind : Byte) (payload : List Byte), kind ≠ 0xA5 → payload.length ≤ 1024 →
      (s.engine e).rxBuffer.length < 2 →
      exec (.rxFrameComplete e kind payload) s = .next { s with engines := s.engines.set e { s.engine e with
        rxBuffer := (s.engine e).rxBuffer ++ [RawFrame.mk kind payload], rx := .markDue } }.grantAll) ∧
    (∀ c : Instr, (c = .receiveFault e ∧ (s.engine e).rx ≠ .hunt) ∨
        (2 ≤ (s.engine e).rxBuffer.length ∧
          ∃ kind payload, c = .rxFrameComplete e kind payload ∧ kind ≠ 0xA5 ∧ payload.length ≤ 1024) →
      ((s.engine e).link = .hunting ∨ (∀ h ∈ (s.engine e).sheets, h.state = .unknown) →
        exec c s = .next (s.modEngine e fun r => { r with
          rx := .hunt, receiveFaults := if r.receiveFaults < 255 then r.receiveFaults + 1 else r.receiveFaults }).grantAll) ∧
      ((s.engine e).link = .online → (∃ h ∈ (s.engine e).sheets, h.state ≠ .unknown) →
        ∃ u : State, exec c s = .next u.grantAll ∧ Quiet s u ∧ engineFlag e ∈ u.link.flags ∧
          (u.engine e).link = .hunting ∧ (u.engine e).lastLoss = some .receiveFault ∧ (u.engine e).credit = 0 ∧
          (u.engine e).control = [.hello] ∧ (u.engine e).rxBuffer = [] ∧ (u.engine e).taken = none ∧
          (u.engine e).receiveFaults =
            if (s.engine e).receiveFaults < 255 then (s.engine e).receiveFaults + 1 else (s.engine e).receiveFaults)) ∧
    (exec (.markPairFound e) s = .next { s with engines := s.engines.set e { s.engine e with rx := .marked } }) ∧
    (∀ f rest, (s.engine e).rxBuffer = f :: rest →
      (f.judge = none → exec (.frameTaken e) s = .next (s.modEngine e fun r => { r with
        rxBuffer := rest, taken := some f, silenceTimer := if r.link = .online then some 2000 else r.silenceTimer
        protocolErrors := if r.protocolErrors < 255 then r.protocolErrors + 1 else r.protocolErrors }).grantAll) ∧
      (∀ x, f.judge = some x → (∀ y, x ≠ .ready y) → (s.engine e).link = .hunting →
        exec (.frameTaken e) s = .next (s.modEngine e fun r => { r with rxBuffer := rest, taken := some f }).grantAll) ∧
      (∀ c : Instr, Names e f c → ∃ u : State, exec (.frameTaken e) s = .next u ∧ exec c s = .next u)) ∧
    ((s.engine e).rxBuffer = [] → exec (.frameTaken e) s = .next s)

/-- READY and STATUS record the engine's facts, with the MEDIA_OUT hold exactly while no sheets remain. A READY in HUNTING brings the link
ONLINE without hello and relink timers and with no UNKNOWN sheet left, a READY in ONLINE leaves it ONLINE, and both start the silence timer
afresh; a STATUS acts in ONLINE alone and records the head state. That a frame command can stand for its arrival is the model's choice (log
entry 2). -/
def Obligations.ReadyAndStatusRecordTheFacts : Prop :=
  ∀ (e : Fin 3) (media : Byte) (sheets lastTag : Word16) (bufferFree : Byte) (s : State),
    media.toNat ≤ 7 → bufferFree.toNat ≤ 2 →
    (Offers e ⟨0x11, media :: (word2 sheets ++ word2 lastTag ++ [bufferFree])⟩ s → (s.engine e).link ≠ .absent →
      ∃ u : State, exec (.ready e media sheets lastTag bufferFree) s = .next u.grantAll ∧ Quiet s u ∧
        Recorded media sheets lastTag bufferFree (u.engine e) ∧ (u.engine e).link = .online ∧
        (u.engine e).silenceTimer = some 2000 ∧
        (u.engine e).holds = { (s.engine e).holds with mediaOut := decide (sheets = 0) } ∧
        (u.engine e).enabled = (s.engine e).enabled ∧ (u.engine e).stationMask = (s.engine e).stationMask ∧
        (u.engine e).lastLoss = (s.engine e).lastLoss ∧ (u.engine e).head = (s.engine e).head ∧
        ((s.engine e).link = .hunting →
          (u.engine e).helloTimer = none ∧ (u.engine e).relinkTimer = none ∧ engineFlag e ∈ u.link.flags ∧
          ((∀ k, (s.engine k).enabled = false) →
            (u.engine e).credit = bufferFree.toNat ∧ (∀ c ∈ (u.engine e).control, c ≠ .hello) ∧
            (u.engine e).sheets = (s.engine e).without ((s.engine e).tagsIn .unknown))) ∧
        (∀ k, k ≠ e → (u.engine k).setup = (s.engine k).setup) ∧ u.params = s.params ∧ u.store.mem = s.store.mem ∧
        u.thermal = s.thermal ∧ u.bus = s.bus) ∧
    (∀ (head : Byte) (h : HeadState), toHead head = some h →
      Offers e ⟨0x12, media :: (word2 sheets ++ word2 lastTag ++ [bufferFree, head])⟩ s → (s.engine e).link = .online →
      ∃ u : State, exec (.status e media sheets lastTag bufferFree head) s = .next u.grantAll ∧ Quiet s u ∧
        Recorded media sheets lastTag bufferFree (u.engine e) ∧ (u.engine e).link = .online ∧ (u.engine e).head = some h ∧
        (u.engine e).holds = { (s.engine e).holds with mediaOut := decide (sheets = 0) } ∧
        (u.engine e).enabled = (s.engine e).enabled ∧ (u.engine e).stationMask = (s.engine e).stationMask ∧
        (u.engine e).lastLoss = (s.engine e).lastLoss ∧
        (∀ k, k ≠ e → (u.engine k).setup = (s.engine k).setup) ∧ u.params = s.params ∧ u.store.mem = s.store.mem ∧
        u.thermal = s.thermal ∧ u.bus = s.bus)

/-- The outcome of a copy reaches its line: SHEET DONE, and a READY or STATUS whose last completed tag has passed the sheet, count it
delivered with its price; JAM, DATA ERROR, HEAD HOT and ABORTED, and a READY or the relink timer for a sheet whose completion is not known,
charge it to the reprint allowance or fail it where the allowance is used up; MEDIA OUT and MEDIA MISMATCH let it wait again; on a stopped
line it fails and in a cancelled order it is withdrawn; DECODE ERROR fails it and stops the line. While a copy of the order is unresolved
nothing else of the order changes. When it was the last, the order is settled: without a tender it is CLOSED as CAPTURED, and with one it is
SETTLING and the capture of the value delivered, or a void where that is 0, is asked for and handed to a line that is free for it. A tag
that is not listed is counted stray, and a SHEET DONE for a sheet still STREAMING a protocol error. That a frame command can stand for its
arrival is the model's choice (log entry 2). -/
def Obligations.SheetOutcomesReachTheOrder : Prop :=
  ∀ (e : Fin 3) (h : Sheet) (o : Order) (l : OrderLine) (s : State),
    (Offers e ⟨0x13, word2 h.tag⟩ s → (s.engine e).link = .online →
      (InFlight e h o l s →
        ∃ u : State, exec (.sheetDone e h.tag) s = .next u.grantAll ∧ (u.engine e).sheets = [] ∧ engineFlag e ∈ u.link.flags ∧
          Counted h.order o { l with inFlight := l.inFlight - 1, delivered := l.delivered + 1 } (o.valueDelivered + l.unitPrice) s u) ∧
      ((s.engine e).sheet h.tag = none →
        ∃ u : State, exec (.sheetDone e h.tag) s = .next u.grantAll ∧ Quiet s u ∧ u = { s with link := u.link, engines := u.engines } ∧
          (u.engine e).sheets = (s.engine e).sheets ∧
          (u.engine e).strayOutcomes = if (s.engine e).strayOutcomes < 255 then (s.engine e).strayOutcomes + 1
            else (s.engine e).strayOutcomes) ∧
      ((s.engine e).sheet h.tag = some h → h.state = .streaming →
        ∃ u : State, exec (.sheetDone e h.tag) s = .next u.grantAll ∧ Quiet s u ∧ u = { s with link := u.link, engines := u.engines } ∧
          (u.engine e).sheets = (s.engine e).sheets ∧
          (u.engine e).protocolErrors = if (s.engine e).protocolErrors < 255 then (s.engine e).protocolErrors + 1
            else (s.engine e).protocolErrors)) ∧
    (∀ code : Byte, Offers e ⟨0x14, word2 h.tag ++ [code]⟩ s → (s.engine e).link = .online → InFlight e h o l s →
      (∀ cause, (code = 1 ∧ cause = .jam) ∨ (code = 2 ∧ cause = .dataError) ∨ (code = 3 ∧ cause = .headHot) ∨
          (code = 4 ∧ cause = .aborted) →
        ∃ u : State, exec (.sheetFault e h.tag code) s = .next u.grantAll ∧ (u.engine e).sheets = [] ∧
          Counted h.order o (l.charged o cause) o.valueDelivered s u) ∧
      (∀ cause, (code = 5 ∧ cause = .mediaOut) ∨ (code = 6 ∧ cause = .mediaMismatch) →
        ∃ u : State, exec (.sheetFault e h.tag code) s = .next u.grantAll ∧ (u.engine e).sheets = [] ∧
          Counted h.order o (l.returned o cause) o.valueDelivered s u) ∧
      (code = 7 →
        ∃ u : State, exec (.sheetFault e h.tag code) s = .next u.grantAll ∧ (u.engine e).sheets = [] ∧
          Counted h.order o { l with
            inFlight := l.inFlight - 1
            failed := l.failed + 1 + (l.quantity - (l.delivered + (l.failed + 1) + l.withdrawn + (l.inFlight - 1)))
            stopped := true
            lastFault := some .decodeError } o.valueDelivered s u)) ∧
    (∀ (media : Byte) (sheets lastTag : Word16) (bufferFree : Byte), media.toNat ≤ 7 → bufferFree.toNat ≤ 2 → InFlight e h o l s →
      (Offers e ⟨0x11, media :: (word2 sheets ++ word2 lastTag ++ [bufferFree])⟩ s →
        ((s.engine e).link = .hunting ∧ h.state = .unknown) ∨ ((s.engine e).link = .online ∧ h.state = .sent) →
        (inWindow h.tag (s.engine e).nextTag lastTag = true → atOrBefore h.tag lastTag = true →
          ∃ u : State, exec (.ready e media sheets lastTag bufferFree) s = .next u.grantAll ∧ (u.engine e).sheets = [] ∧
            Counted h.order o { l with inFlight := l.inFlight - 1, delivered := l.delivered + 1 } (o.valueDelivered + l.unitPrice) s u) ∧
        (inWindow h.tag (s.engine e).nextTag lastTag = false ∨ atOrBefore h.tag lastTag = false →
          ∃ u : State, exec (.ready e media sheets lastTag bufferFree) s = .next u.grantAll ∧ (u.engine e).sheets = [] ∧
            (u.engine e).protocolErrors = (if inWindow h.tag (s.engine e).nextTag lastTag = false ∧ (s.engine e).protocolErrors < 255
              then (s.engine e).protocolErrors + 1 else (s.engine e).protocolErrors) ∧
            Counted h.order o (l.charged o .linkLost) o.valueDelivered s u)) ∧
      (∀ head, toHead head ≠ none → Offers e ⟨0x12, media :: (word2 sheets ++ word2 lastTag ++ [bufferFree, head])⟩ s →
        inWindow h.tag (s.engine e).nextTag lastTag = true → (s.engine e).link = .online → h.state = .sent →
        atOrBefore h.tag lastTag = true →
        ∃ u : State, exec (.status e media sheets lastTag bufferFree head) s = .next u.grantAll ∧ (u.engine e).sheets = [] ∧
          (u.engine e).protocolErrors = (if (s.engine e).protocolErrors < 255 then (s.engine e).protocolErrors + 1
            else (s.engine e).protocolErrors) ∧
          Counted h.order o { l with inFlight := l.inFlight - 1, delivered := l.delivered + 1 } (o.valueDelivered + l.unitPrice) s u)) ∧
    (s.part.inReset = false → s.part.started = true → (s.engine e).relinkTimer ≠ none → h.state = .unknown → InFlight e h o l s →
      ∃ u : State, exec (.relinkTimerExpiry e) s = .next u.grantAll ∧ (u.engine e).sheets = [] ∧
        Counted h.order o (l.charged o .linkLost) o.valueDelivered s u)

/-- SET ENGINE refuses an engine above 2, an enabled byte other than 0 and 1 and a mask above 15, and otherwise stores enabled and mask;
HOLD ENGINE sets the HOST hold and RELEASE ENGINE removes it; READ ENGINE answers the record and, with clear, zeroes the three counters. The
bytes of READ ENGINE's hold reasons are the model's choice (log entry 18). -/
def Obligations.EngineRequestsChangeTheRecord : Prop :=
  ∀ (b : Byte) (s : State),
    (∀ enabled mask : Byte, Reaches (.setEngine b enabled mask) s →
      (2 < b.toNat ∨ 1 < enabled.toNat ∨ 15 < mask.toNat →
        exec (.setEngine b enabled mask) s = .next ((s.atWork (.setEngine b enabled mask)).respond .badArgument []).grantAll) ∧
      (∀ e : Fin 3, b.toNat = e.val → enabled.toNat ≤ 1 → mask.toNat ≤ 15 →
        ∃ u : State, exec (.setEngine b enabled mask) s = .next u.grantAll ∧ Finishes (.setEngine b enabled mask) .ok [] s u ∧
          (u.engine e).setup = { s.engine e with enabled := enabled = 1, stationMask := mask.setWidth 4 }.setup ∧
          (∀ k, k ≠ e → (u.engine k).setup = (s.engine k).setup) ∧ u.params = s.params ∧ u.store.mem = s.store.mem ∧
          u.thermal = s.thermal ∧ u.bus = s.bus)) ∧
    (Reaches (.holdEngine b) s →
      (2 < b.toNat → exec (.holdEngine b) s = .next ((s.atWork (.holdEngine b)).respond .badArgument []).grantAll) ∧
      (∀ e : Fin 3, b.toNat = e.val →
        ∃ u : State, exec (.holdEngine b) s = .next u.grantAll ∧ Finishes (.holdEngine b) .ok [] s u ∧
          (u.engine e).setup = { s.engine e with holds := { (s.engine e).holds with host := true } }.setup ∧
          (∀ k, k ≠ e → (u.engine k).setup = (s.engine k).setup) ∧ u.params = s.params ∧ u.store.mem = s.store.mem ∧
          u.thermal = s.thermal ∧ u.bus = s.bus)) ∧
    (Reaches (.releaseEngine b) s →
      (2 < b.toNat → exec (.releaseEngine b) s = .next ((s.atWork (.releaseEngine b)).respond .badArgument []).grantAll) ∧
      (∀ e : Fin 3, b.toNat = e.val →
        ∃ u : State, exec (.releaseEngine b) s = .next u.grantAll ∧ Finishes (.releaseEngine b) .ok [] s u ∧
          (u.engine e).setup = { s.engine e with holds := { (s.engine e).holds with host := false } }.setup ∧
          (∀ k, k ≠ e → (u.engine k).setup = (s.engine k).setup) ∧ u.params = s.params ∧ u.store.mem = s.store.mem ∧
          u.thermal = s.thermal ∧ u.bus = s.bus)) ∧
    (∀ clear : Byte, Reaches (.readEngine b clear) s →
      (2 < b.toNat ∨ 1 < clear.toNat → OnlyAnswers (.readEngine b clear) s .badArgument []) ∧
      (∀ e : Fin 3, b.toNat = e.val →
        (clear = 0 → OnlyAnswers (.readEngine b clear) s .ok ((s.engine e).bytes e)) ∧
        (clear = 1 →
          ∃ u : State, exec (.readEngine b clear) s = .next u ∧ u = { s with link := u.link, engines := u.engines } ∧
            Finishes (.readEngine b clear) .ok ((s.engine e).bytes e) s u ∧
            u.engine e = { s.engine e with receiveFaults := 0, strayOutcomes := 0, protocolErrors := 0 } ∧
            (∀ k, k ≠ e → u.engine k = s.engine k))))

/-- A grant: when the release of the HOST hold leaves engine e eligible, its arbiter chooses among the candidates of the Ready List by
priority level and express run count, by station in round-robin order, and by place in the list; and the engine takes one copy of the line
chosen: a STREAMING sheet under its next tag, SHEET START on the sheet path, the frame pinned and one copy more in flight. The run count and
the pointer of the level move, and the other pointer stays. Without a candidate nothing but the hold changes. No other engine is enabled
here. -/
def Obligations.ReleasedEngineTakesTheReadyCopy : Prop :=
  ∀ (b : Byte) (e : Fin 3) (s : State),
    Reaches (.releaseEngine b) s → b.toNat = e.val → (∀ k, k ≠ e → (s.engine k).enabled = false) →
    (s.engine e).link = .online → (s.engine e).enabled = true → (s.engine e).holds = ⟨true, false, false, false⟩ →
    (s.engine e).sheets = [] → (s.engine e).channel = Channel.reset → (s.engine e).sheetPath = none →
    ((∀ q o, ¬ IsCandidate e q o s) →
      ∃ u : State, exec (.releaseEngine b) s = .next u.grantAll ∧ Finishes (.releaseEngine b) .ok [] s u ∧
        u.engine e = { s.engine e with holds := ⟨false, false, false, false⟩ } ∧ (∀ k, k ≠ e → u.engine k = s.engine k) ∧
        u = { s with link := u.link, engines := u.engines }) ∧
    (∀ (n : Nat) (o : Order) (l : OrderLine) (f : Frame), Chosen e (n, l.number) o s → o.line l.number = some l → o.state = .printing →
      0 < l.waiting → s.frame l.frame = some f →
      ∃ u : State, exec (.releaseEngine b) s = .next u.grantAll ∧ Finishes (.releaseEngine b) .ok [] s u ∧
        (u.engine e).sheets = [{
          tag := (s.engine e).nextTag, order := n, line := l.number, frame := l.frame, state := .streaming
          media := (s.engine e).media, fit := l.fit, payloadLength := f.byteLength, abortSent := false }] ∧
        (u.engine e).nextTag = (s.engine e).nextTag + 1 ∧
        (u.engine e).expressRun = (if o.priority = .standard then 0 else (u.engine e).expressRun) ∧
        (o.priority = .express →
          ((∃ x p, IsCandidate e x p s ∧ p.priority = .standard) → (u.engine e).expressRun = (s.engine e).expressRun + 1) ∧
          ((∀ x p, IsCandidate e x p s → p.priority = .express) → (u.engine e).expressRun = 0)) ∧
        (u.engine e).expressPointer = (if o.priority = .express then o.station else (s.engine e).expressPointer) ∧
        (u.engine e).standardPointer = (if o.priority = .standard then o.station else (s.engine e).standardPointer) ∧
        (u.engine e).sheetPath = some (.sheetStart (s.engine e).nextTag (s.engine e).media l.fit f.byteLength) ∧
        (u.engine e).channel.phase = .reading ∧ (u.engine e).channel.sheet = some (s.engine e).nextTag ∧
        u.order n = some (o.setLine { l with inFlight := l.inFlight + 1 }) ∧ (∀ m, m ≠ n → u.order m = s.order m) ∧
        u.frame l.frame = some { f with pins := f.pins + 1 } ∧ (∀ m, m ≠ l.frame → u.frame m = s.frame m) ∧
        ((n, l.number) ∈ u.ready ↔ 1 < l.waiting) ∧ (∀ k, k ≠ e → u.engine k = s.engine k) ∧ u.store.mem = s.store.mem)

/-- A raster burst completes: good or corrected data of a READING channel fills a burst buffer, the page's wear count rises by the corrected
groups up to 15 and, where the other buffer is free, the next burst of the page is asked for; the last burst of a page lets the page go, and
the next page is read from the extent as it stands where a buffer is free; the last burst of the sheet takes the channel to FINISHING; with
the sheet path free 1022 bytes of it go out as SHEET DATA; an uncorrectable group damages the READY frame of its page with STORE_ERROR, ends
the sheet with STORE_ERROR and hands SHEET ABORT; a STOPPING channel discards the burst and is IDLE. The store's bytes do not change. -/
def Obligations.RasterBurstFillsABuffer : Prop :=
  ∀ (e : Fin 3) (p : Page) (position length : Nat) (x : ReadErrors) (s : State),
    s.store.port.busy = some (.raster e p position length) →
    ((s.engine e).channel.phase = .reading → x = ReadErrors.none → (s.engine e).channel.buffers = [] →
      (s.engine e).channel.readingPage = some p → (∀ a ∈ s.store.port.waiting, a.isRaster e = false) →
      ((s.engine e).channel.bytesRead + length) % 65536 ≠ 0 →
      (s.engine e).channel.bytesRead + length < (s.engine e).channel.length →
      ((s.engine e).sheetPath ≠ none → ∃ u : State, exec (.rasterBurstComplete e x) s = .next u.grantAll ∧
        u = { s with
          engines := s.engines.set e { s.engine e with channel := { (s.engine e).channel with
            bytesRead := (s.engine e).channel.bytesRead + length
            buffers := [readBytes s.store.mem (pageAddress p position) length] } }
          store := { s.store with port := { s.store.port with busy := none, waiting := s.store.port.waiting ++
            [Access.raster e p (((s.engine e).channel.bytesRead + length) % 65536)
              (burstLength (s.engine e).channel.length ((s.engine e).channel.bytesRead + length))] } } }) ∧
      (∀ tag, (s.engine e).sheetPath = none → (s.engine e).channel.sheet = some tag → (s.engine e).channel.endDue = false →
        1022 ≤ length → (s.engine e).channel.bytesHanded + 1022 < (s.engine e).channel.length →
        ∃ u : State, exec (.rasterBurstComplete e x) s = .next u.grantAll ∧ u.link = s.link ∧ u.store.mem = s.store.mem ∧
          (u.engine e).sheetPath = some (.sheetData tag ((readBytes s.store.mem (pageAddress p position) length).take 1022)) ∧
          (u.engine e).channel.bytesHanded = (s.engine e).channel.bytesHanded + 1022 ∧
          (u.engine e).channel.bytesRead = (s.engine e).channel.bytesRead + length ∧
          (u.engine e).sheets = (s.engine e).sheets ∧ u.book = s.book)) ∧
    (∀ (c d : Channel) (n : Nat), c = (s.engine e).channel → n = c.bytesRead + length → n ≤ c.length →
      c.phase = .reading → x.uncorrectable = 0 → c.buffers.length < 2 → c.readingPage = some p →
      (∀ a ∈ s.store.port.waiting, a.isRaster e = false) → (s.engine e).sheetPath ≠ none →
      d = { c with bytesRead := n, buffers := c.buffers ++ [readBytes s.store.mem (pageAddress p position) length] } →
      ∃ u : State, exec (.rasterBurstComplete e x) s = .next u.grantAll ∧ Quiet s u ∧ u.store.mem = s.store.mem ∧
        u.book = s.book ∧ u.tenders = s.tenders ∧ (∀ k, k ≠ e → u.engine k = s.engine k) ∧
        (u.attr p).wear = (if x.correctable = 0 then (s.attr p).wear else min 15 ((s.attr p).wear + x.correctable)) ∧
        (n % 65536 ≠ 0 → n < c.length →
          u.engine e = { s.engine e with channel := d } ∧ (u.attr p).readers = (s.attr p).readers ∧
          (c.buffers = [] → Access.raster e p (n % 65536) (burstLength c.length n) ∈ u.store.port.waiting) ∧
          (c.buffers ≠ [] → ∀ a ∈ u.store.port.waiting, a.isRaster e = false)) ∧
        (n = c.length →
          u.engine e = { s.engine e with channel := { d with readingPage := none, pageIndex := c.pageIndex + 1, phase := .finishing } } ∧
          (u.attr p).readers = (s.attr p).readers - 1 ∧ ∀ a ∈ u.store.port.waiting, a.isRaster e = false) ∧
        (n % 65536 = 0 → n < c.length →
          (c.buffers ≠ [] →
            u.engine e = { s.engine e with channel := { d with readingPage := none, pageIndex := c.pageIndex + 1 } } ∧
            (u.attr p).readers = (s.attr p).readers - 1 ∧ ∀ a ∈ u.store.port.waiting, a.isRaster e = false) ∧
          (∀ f q, c.buffers = [] → s.frame c.frame = some f → f.state ≠ .damaged → f.extent[c.pageIndex + 1]? = some q → q ≠ p →
            u.engine e = { s.engine e with channel := { d with readingPage := some q, pageIndex := c.pageIndex + 1 } } ∧
            (u.attr p).readers = (s.attr p).readers - 1 ∧ (u.attr q).readers = (s.attr q).readers + 1 ∧
            Access.raster e q 0 (burstLength c.length n) ∈ u.store.port.waiting))) ∧
    (∀ tag h, (s.engine e).channel.phase = .reading → 0 < x.uncorrectable → (s.engine e).channel.sheet = some tag →
      (s.engine e).sheet tag = some h → h.state = .streaming → (s.engine e).channel.sheetWaits = false →
      (s.engine e).link = .online → (s.engine e).control = [] → (∀ k, (s.engine k).enabled = false) →
      ∃ u : State, exec (.rasterBurstComplete e x) s = .next u.grantAll ∧ Quiet s u ∧ engineFlag e ∈ u.link.flags ∧
        u.store.mem = s.store.mem ∧ (u.attr p).condemned = true ∧
        (∀ m f, LiesIn p m f s → StoreDamaged p m f s u) ∧
        (u.engine e).sheets = (s.engine e).without [tag] ∧
        (u.engine e).control = [.abort tag] ∧ (u.engine e).sheetPath = none ∧ (u.engine e).channel = Channel.reset) ∧
    ((s.engine e).channel.phase = .stopping → (s.engine e).channel.sheetWaits = false → x = ReadErrors.none →
      ∃ u : State, exec (.rasterBurstComplete e x) s = .next u.grantAll ∧ Quiet s u ∧ u.store.mem = s.store.mem ∧
        u.engine e = { s.engine e with channel := Channel.reset } ∧ (∀ k, k ≠ e → u.engine k = s.engine k) ∧ u.book = s.book ∧
        u.tenders = s.tenders)

/-! ### The thermal watch and the management bus -/

/-- The poll timer makes a poll of the first present sensor from the cursor on; a transfer that ends DONE gives the sensor its reading, age
0 and latch, makes the thermal holds of every engine what the sensors now say, and hands SHEET ABORT at the cutoff; a void poll yields no
reading and its NO_ACK does not stop the poller; NO_ACK of another sets BUS_ERROR and stops it, and STUCK of any poll sets BUS_STUCK and
stops it, even where it has become IDLE meanwhile; an age past the stale limit makes the sensor stale. A poll sends its sensor's address
byte to write, the pointer byte 0x00 and, after a repeated start, its address byte to read. That the poll timer starts after a void poll,
and that a sensor which left while its claim waited gives no reading, is the model's reading (log entry 16). -/
def Obligations.PollsReadTheSensors : Prop :=
  ∀ (i : Fin 4) (s : State),
    (s.part.inReset = false → s.part.started = true → s.thermal.pollTimer ≠ none → s.thermal.state = .running →
      s.firstPresent s.thermal.cursor = some i → (∀ c ∈ s.bus.claims, c.isPoll = false) →
      (s.bus.current = none → s.bus.claims = [] →
        exec .pollTimerExpiry s = .next { s with
          thermal := { s.thermal with pollTimer := none, cursor := (s.firstPresent (i + 1)).getD i }
          bus := { s.bus with current := some (.poll i false), writeLeft := none, ackWindow := none } }) ∧
      (s.bus.current ≠ none →
        exec .pollTimerExpiry s = .next { s with
          thermal := { s.thermal with pollTimer := none, cursor := (s.firstPresent (i + 1)).getD i }
          bus := { s.bus with claims := s.bus.claims ++ [.poll i false] } })) ∧
    (∀ whole fraction : Byte, s.bus.claims = [] →
      (s.bus.current = some (.poll i false) →
        (∀ t : Int, s.present i = true → t = max (-40) (min 125 whole.toInt) →
          ∃ u : State, exec (.pollTransferEnd .done whole fraction) s = .next u.grantAll ∧ Quiet s u ∧
            (u.sensor i).reading = some t ∧ (u.sensor i).age = some 0 ∧
            (i = 3 → (u.sensor i).latch = if (s.params.cabinetLimit : Int) ≤ t then true
              else if t ≤ (s.params.cabinetLimit : Int) - s.params.hysteresis then false else (s.sensor i).latch) ∧
            (i ≠ 3 → (u.sensor i).latch =
              if (s.params.headHoldLimit : Int) ≤ t ∨ (s.params.headCutoffLimit : Int) ≤ t then true
              else if t ≤ (s.params.headHoldLimit : Int) - s.params.hysteresis ∧ t < (s.params.headCutoffLimit : Int) then false
              else (s.sensor i).latch) ∧
            (∀ j, j ≠ i → u.sensor j = s.sensor j) ∧
            u.thermal = { s.thermal with
              sensors := u.thermal.sensors
              pollTimer := if s.thermal.state = .running then some s.params.pollInterval else s.thermal.pollTimer } ∧
            u.bus = { s.bus with current := none, writeLeft := none, ackWindow := none } ∧
            (∀ e, (u.engine e).setup = { s.engine e with holds := { (s.engine e).holds with
              thermalHigh := u.wantsHigh e, thermalStale := u.wantsStale e } }.setup) ∧
            u.params = s.params ∧ u.store.mem = s.store.mem ∧
            (∀ (e : Fin 3) (h : Sheet), e.val = i.val → (s.params.headCutoffLimit : Int) ≤ t → (s.engine e).link = .online →
              (∀ k, (s.engine k).enabled = false) → (s.engine e).sheets = [h] → h.state = .sent → h.abortSent = false →
              (s.engine e).control = [] →
              (u.engine e).control = [.abort h.tag] ∧ (u.engine e).sheets = [{ h with abortSent := true }])) ∧
        (∃ u : State, exec (.pollTransferEnd .noAck whole fraction) s = .next u.grantAll ∧ Quiet s u ∧
          (∀ c, u.hasCondition c = (s.hasCondition c || decide (c = .busError))) ∧ partFlag ∈ u.link.flags ∧
          u = { s with
            link := u.link
            thermal := { s.thermal with state := .stopped, stopCause := some (.noAck i), pollTimer := none }
            bus := { s.bus with
              current := none, writeLeft := none, ackWindow := none, lastFault := some (.noAck (BitVec.ofNat 8 (0x4C + i.val))) } }) ∧
        (s.present i = false →
          exec (.pollTransferEnd .done whole fraction) s = .next { s with
            thermal := { s.thermal with
              pollTimer := if s.thermal.state = PollState.running then some s.params.pollInterval else s.thermal.pollTimer }
            bus := { s.bus with current := none, writeLeft := none, ackWindow := none } }.grantAll)) ∧
      (s.bus.current = some (.poll i true) →
        (∀ timer, timer = (if s.thermal.state = PollState.running then some s.params.pollInterval else s.thermal.pollTimer) →
          exec (.pollTransferEnd .done whole fraction) s = .next { s with
            thermal := { s.thermal with pollTimer := timer }
            bus := { s.bus with current := none, writeLeft := none, ackWindow := none } }.grantAll ∧
          exec (.pollTransferEnd .noAck whole fraction) s = .next { s with
            thermal := { s.thermal with pollTimer := timer }
            bus := { s.bus with
              current := none, writeLeft := none, ackWindow := none
              lastFault := some (.noAck (BitVec.ofNat 8 (0x4C + i.val))) } }.grantAll)) ∧
      (∀ void, s.bus.current = some (.poll i void) →
        State.busOut s = [.start, .sends (BitVec.ofNat 8 (0x98 + 2 * i.val)), .sends 0x00, .start,
          .sends (BitVec.ofNat 8 (0x99 + 2 * i.val)), .reads 2, .stop] ∧
        ∃ u : State, exec (.pollTransferEnd .stuck whole fraction) s = .next u.grantAll ∧ Quiet s u ∧
          (∀ c, u.hasCondition c = (s.hasCondition c || decide (c = .busStuck))) ∧ partFlag ∈ u.link.flags ∧
          u = { s with
            link := u.link
            thermal := s.thermal.stuck
            bus := { s.bus with current := none, writeLeft := none, ackWindow := none, lastFault := some .stuck } })) ∧
    (s.part.inReset = false → s.part.started = true → s.present i = true → s.stale i = false →
      ∃ u : State, exec (.staleLimitPassed i) s = .next u.grantAll ∧ Quiet s u ∧ u.stale i = true ∧
        u.sensor i = { s.sensor i with age := some (s.params.staleLimit + 1) } ∧ (∀ j, j ≠ i → u.sensor j = s.sensor j) ∧
        u.thermal = { s.thermal with sensors := u.thermal.sensors } ∧ u.bus = s.bus ∧
        (∀ e, (u.engine e).setup = { s.engine e with holds := { (s.engine e).holds with
          thermalHigh := u.wantsHigh e, thermalStale := u.wantsStale e } }.setup) ∧
        u.params = s.params ∧ u.store.mem = s.store.mem)

/-- CLEAR BUS ERROR takes a STOPPED poller back to polling, or to IDLE where no sensor is present. RECOVER BUS, SETTINGS READ and SETTINGS
WRITE claim the bus after their checks, and each is answered when its transfer has ended: with the bytes read where it ended DONE, and
DEVICE_NO_ANSWER with the last bus fault otherwise; STUCK stops polling too. The bus carries the manual's bytes, a SETTINGS WRITE first its
write and then polling. How many whole milliseconds the write lasts before its polling window starts is the model's choice (log entry 26). -/
def Obligations.ManagementBusServesTheHost : Prop :=
  ∀ s : State,
    (Reaches .clearBusError s →
      (s.thermal.state ≠ .stopped → OnlyAnswers .clearBusError s .ok []) ∧
      (s.thermal.state = .stopped → s.params.presentMask = 0 →
        exec .clearBusError s = .next ({ s.atWork .clearBusError with
          thermal := { s.thermal with state := .idle, stopCause := none } }.respond .ok [])) ∧
      (∀ i, s.thermal.state = .stopped → s.params.presentMask ≠ 0 → s.firstPresent s.thermal.cursor = some i →
        s.bus.current = none → s.bus.claims = [] →
        exec .clearBusError s = .next ({ s.atWork .clearBusError with
          thermal := { s.thermal with state := .running, stopCause := none, cursor := (s.firstPresent (i + 1)).getD i }
          bus := { s.bus with current := some (.poll i false), writeLeft := none, ackWindow := none } }.respond .ok []))) ∧
    (Reaches .recoverBus s →
      (s.bus.current = none → s.bus.claims = [] →
        exec .recoverBus s = .next { s.atWork .recoverBus with
          bus := { s.bus with current := some .recover, writeLeft := none, ackWindow := none } }) ∧
      (s.bus.current ≠ none →
        exec .recoverBus s = .next { s.atWork .recoverBus with bus := { s.bus with claims := s.bus.claims ++ [.recover] } })) ∧
    (s.bus.current = some .recover → s.bus.claims = [] →
      exec (.recoverBusEnd true) s =
        .next ({ s with bus := { s.bus with current := none, writeLeft := none, ackWindow := none } }.respond .ok []) ∧
      ∃ u : State, exec (.recoverBusEnd false) s = .next u ∧ Answered .deviceNoAnswer [] u ∧ u.hasCondition .busStuck = true ∧
        partFlag ∈ u.link.flags ∧ u = { s with link := u.link, thermal := s.afterStuck, bus := u.bus } ∧
        u.bus = { s.bus with current := none, writeLeft := none, ackWindow := none, lastFault := some .stuck }) ∧
    (∀ address count : Word16, Reaches (.settingsRead address count) s →
      (0x1FF < address.toNat ∨ count.toNat = 0 ∨ 256 < count.toNat ∨ 512 < address.toNat + count.toNat →
        OnlyAnswers (.settingsRead address count) s .badArgument []) ∧
      (1 ≤ count.toNat → count.toNat ≤ 256 → address.toNat + count.toNat ≤ 512 →
        (s.bus.current = none → s.bus.claims = [] →
          exec (.settingsRead address count) s = .next { s.atWork (.settingsRead address count) with
            bus := { s.bus with current := some (.settingsRead address.toNat count.toNat), writeLeft := none, ackWindow := none } }) ∧
        (s.bus.current ≠ none →
          exec (.settingsRead address count) s = .next { s.atWork (.settingsRead address count) with
            bus := { s.bus with claims := s.bus.claims ++ [.settingsRead address.toNat count.toNat] } }))) ∧
    (∀ (address count : Nat) (data : List Byte), s.bus.current = some (.settingsRead address count) →
      (data.length = count →
        (s.bus.claims = [] → exec (.settingsReadEnd .done data) s =
          .next ({ s with bus := { s.bus with current := none, writeLeft := none, ackWindow := none } }.respond .ok data)) ∧
        (∀ a d rest, s.bus.claims = .settingsWrite a d :: rest → exec (.settingsReadEnd .done data) s =
          .next ({ s with bus := { s.bus with
            current := some (.settingsWrite a d), claims := rest, writeLeft := some (writeMs d), ackWindow := none } }.respond .ok data)) ∧
        (∀ c rest, s.bus.claims = c :: rest → (∀ a d, c ≠ .settingsWrite a d) → exec (.settingsReadEnd .done data) s =
          .next ({ s with bus := { s.bus with current := some c, claims := rest, writeLeft := none, ackWindow := none } }.respond .ok data))) ∧
      (s.bus.claims = [] → exec (.settingsReadEnd .noAck data) s =
        .next ({ s with bus := { s.bus with
          current := none, writeLeft := none, ackWindow := none, lastFault := some (.noAck 0x56) } }.respond .deviceNoAnswer [])) ∧
      (s.bus.claims = [] →
        ∃ u : State, exec (.settingsReadEnd .stuck data) s = .next u ∧ Answered .deviceNoAnswer [] u ∧
          u.hasCondition .busStuck = true ∧
            u.bus = { s.bus with current := none, writeLeft := none, ackWindow := none, lastFault := some .stuck } ∧
          u = { s with link := u.link, thermal := s.afterStuck, bus := u.bus })) ∧
    (∀ (address : Word16) (data : List Byte), Reaches (.settingsWrite address data) s →
      (0x1FF < address.toNat ∨ data.length = 0 ∨ 16 < data.length →
        OnlyAnswers (.settingsWrite address data) s .badArgument []) ∧
      (address.toNat ≤ 0x1FF → 1 ≤ data.length → data.length ≤ 16 →
        (16 < address.toNat % 16 + data.length → OnlyAnswers (.settingsWrite address data) s .limit []) ∧
        (address.toNat % 16 + data.length ≤ 16 → s.bus.current = none → s.bus.claims = [] →
          exec (.settingsWrite address data) s = .next { s.atWork (.settingsWrite address data) with
            bus := { s.bus with
              current := some (.settingsWrite address.toNat data), writeLeft := some (writeMs data), ackWindow := none } }) ∧
        (address.toNat % 16 + data.length ≤ 16 → s.bus.current ≠ none →
          exec (.settingsWrite address data) s = .next { s.atWork (.settingsWrite address data) with
            bus := { s.bus with claims := s.bus.claims ++ [.settingsWrite address.toNat data] } }))) ∧
    (∀ (address : Nat) (data : List Byte), s.bus.current = some (.settingsWrite address data) → s.bus.claims = [] →
      exec (.settingsWriteEnd .done) s =
        .next ({ s with bus := { s.bus with current := none, writeLeft := none, ackWindow := none } }.respond .ok []) ∧
      exec (.settingsWriteEnd .noAck) s =
        .next ({ s with bus := { s.bus with
          current := none, writeLeft := none, ackWindow := none, lastFault := some (.noAck 0x56) } }.respond .deviceNoAnswer []) ∧
      ∃ u : State, exec (.settingsWriteEnd .stuck) s = .next u ∧ Answered .deviceNoAnswer [] u ∧
        u.hasCondition .busStuck = true ∧
        u.bus = { s.bus with current := none, writeLeft := none, ackWindow := none, lastFault := some .stuck } ∧
        u = { s with link := u.link, thermal := s.afterStuck, bus := u.bus }) ∧
    exec .ackPollWindowExpiry s = .next { s with bus := { s.bus with ackWindow := none } } ∧
    (s.bus.current = none → State.busOut s = []) ∧
    (s.bus.current = some .recover → State.busOut s = [.clocks 9, .stop]) ∧
    (s.bus.current = some .loadOption →
      State.busOut s = [.start, .sends 0xAC, .sends 0x00, .sends 0x00, .start, .sends 0xAD, .reads 1, .stop]) ∧
    (∀ option, s.bus.current = some .loadImage → s.loader.option = some option →
      State.busOut s = [.start, .sends 0xAC, .sends 0x00, .sends 0x01, .start, .sends 0xAD,
        .reads (if option = 0x02 then 143 else 79), .stop]) ∧
    (∀ (address : Word16) (high low : Byte), high.toNat = address.toNat / 256 → low.toNat = address.toNat % 256 →
      (∀ count, s.bus.current = some (.settingsRead address.toNat count) →
        State.busOut s = [.start, .sends 0xAC, .sends high, .sends low, .start, .sends 0xAD, .reads count, .stop]) ∧
      (∀ data, s.bus.current = some (.settingsWrite address.toNat data) →
        State.busOut s = if s.bus.writeLeft = none then [.start, .sends 0xAC, .stop]
          else [.start, .sends 0xAC, .sends high, .sends low] ++ data.map .sends ++ [.stop]))

/-! ### Reading requests -/

/-- The reading requests answer the record as it stands and change nothing: an absent frame, order or tender is NO_SUCH_RECORD, an order or
tender number above its table and a slot above 7 BAD_ARGUMENT, and FIND ORDER finds the order that holds the receipt code. The bytes of some
response fields are the model's choice (log entry 18). -/
def Obligations.ReadingRequestsAnswerTheRecords : Prop :=
  ∀ s : State,
    (∀ frame : Word16, Reaches (.readFrame frame) s →
      (s.frame frame.toNat = none → OnlyAnswers (.readFrame frame) s .noSuchRecord []) ∧
      (∀ f, s.frame frame.toNat = some f → OnlyAnswers (.readFrame frame) s .ok (f.bytes frame.toNat))) ∧
    (Reaches .readStore s → OnlyAnswers .readStore s .ok s.store.bytes) ∧
    (∀ b : Byte, Reaches (.readSlot b) s →
      (7 < b.toNat → OnlyAnswers (.readSlot b) s .badArgument []) ∧
      (∀ i : Fin 8, b.toNat = i.val → OnlyAnswers (.readSlot b) s .ok ((s.slot i).bytes i))) ∧
    (∀ b : Byte, Reaches (.readOrder b) s →
      (63 < b.toNat → OnlyAnswers (.readOrder b) s .badArgument []) ∧
      (b.toNat ≤ 63 → s.order b.toNat = none → OnlyAnswers (.readOrder b) s .noSuchRecord []) ∧
      (∀ o, b.toNat ≤ 63 → s.order b.toNat = some o → OnlyAnswers (.readOrder b) s .ok (o.bytes b.toNat))) ∧
    (∀ code : Word32, Reaches (.findOrder code) s →
      (999999 < code.toNat → OnlyAnswers (.findOrder code) s .badArgument []) ∧
      (code.toNat ≤ 999999 → (∀ e ∈ s.book.orders, e.2.receiptCode ≠ code.toNat) →
        OnlyAnswers (.findOrder code) s .noSuchRecord []) ∧
      (∀ n o, code.toNat ≤ 999999 → (n, o) ∈ s.book.orders → o.receiptCode = code.toNat →
        (∀ e ∈ s.book.orders, e.2.receiptCode = code.toNat → e = (n, o)) →
        OnlyAnswers (.findOrder code) s .ok
          [BitVec.ofNat 8 n, BitVec.ofNat 8 o.station.val, BitVec.ofNat 8 o.state.code])) ∧
    (Reaches .readPrices s → OnlyAnswers .readPrices s .ok (s.book.prices.toList.flatMap fun p =>
      [if p.enabled then 1 else 0, BitVec.ofNat 8 p.media, BitVec.ofNat 8 (p.price / 256), BitVec.ofNat 8 p.price])) ∧
    (∀ b : Byte, Reaches (.readTender b) s →
      (31 < b.toNat → OnlyAnswers (.readTender b) s .badArgument []) ∧
      (b.toNat ≤ 31 → s.tender b.toNat = none → OnlyAnswers (.readTender b) s .noSuchRecord []) ∧
      (∀ r, b.toNat ≤ 31 → s.tender b.toNat = some r → OnlyAnswers (.readTender b) s .ok (r.bytes b.toNat))) ∧
    (Reaches .readSensors s → OnlyAnswers .readSensors s .ok s.sensorsBytes)
end

