-- ==== Sys2Proof/Laws/Tables.lean ====
section
/-! SUPPORT. Tables, sets and the bytes of the store: what find, put, erase, insertAsc and the byte operations give, and that each
keeps its canonical form. -/

namespace Sys2Proof.Machine

/-! ### Tables -/

theorem find_put_self {α : Type} (k : Nat) (a : α) (l : List (Nat × α)) : find k (put k a l) = some a := by
  induction l with
  | nil => simp [put, find]
  | cons x rest ih =>
    obtain ⟨n, b⟩ := x
    unfold put
    split
    · simp [find]
    · split
      · simp [find]
      · rw [find, if_neg (by omega), ih]

theorem find_put_other {α : Type} {k m : Nat} (h : m ≠ k) (a : α) (l : List (Nat × α)) : find m (put k a l) = find m l := by
  induction l with
  | nil => simp [put, find, Ne.symm h]
  | cons x rest ih =>
    obtain ⟨n, b⟩ := x
    unfold put
    split
    · simp [find, Ne.symm h]
    · split
      · next hk =>
        subst hk
        simp [find, Ne.symm h]
      · simp only [find, ih]

/-- Reading a table after one entry is stored. -/
theorem find_put {α : Type} (k m : Nat) (a : α) (l : List (Nat × α)) :
    find m (put k a l) = if m = k then some a else find m l := by
  split
  · next h => rw [h, find_put_self]
  · next h => rw [find_put_other h]

theorem find_erase_self {α : Type} (k : Nat) (l : List (Nat × α)) : find k (erase k l) = none := by
  unfold erase
  induction l with
  | nil => rfl
  | cons x rest ih =>
    obtain ⟨n, b⟩ := x
    by_cases hn : n = k
    · rw [List.filter_cons_of_neg (by simp [hn]), ih]
    · rw [List.filter_cons_of_pos (by simp [hn]), find, if_neg hn, ih]

theorem find_erase_other {α : Type} {k m : Nat} (h : m ≠ k) (l : List (Nat × α)) : find m (erase k l) = find m l := by
  unfold erase
  induction l with
  | nil => rfl
  | cons x rest ih =>
    obtain ⟨n, b⟩ := x
    by_cases hn : n = k
    · rw [List.filter_cons_of_neg (by simp [hn]), ih, find, if_neg (by omega)]
    · rw [List.filter_cons_of_pos (by simp [hn]), find, find, ih]

/-- Reading a table after one entry is freed. -/
theorem find_erase {α : Type} (k m : Nat) (l : List (Nat × α)) : find m (erase k l) = if m = k then none else find m l := by
  split
  · next h => rw [h, find_erase_self]
  · next h => rw [find_erase_other h]

theorem mem_put {α : Type} {k : Nat} {a : α} {l : List (Nat × α)} {x : Nat × α} (h : x ∈ put k a l) : x = (k, a) ∨ x ∈ l := by
  induction l with
  | nil => exact .inl (by simpa [put] using h)
  | cons y rest ih =>
    obtain ⟨n, b⟩ := y
    unfold put at h
    split at h
    · rcases List.mem_cons.1 h with h | h
      · exact .inl h
      · exact .inr h
    · split at h
      · rcases List.mem_cons.1 h with h | h
        · exact .inl h
        · exact .inr (List.mem_cons_of_mem _ h)
      · rcases List.mem_cons.1 h with h | h
        · exact .inr (h ▸ List.mem_cons_self)
        · rcases ih h with h | h
          · exact .inl h
          · exact .inr (List.mem_cons_of_mem _ h)

/-- Storing an entry keeps a table ascending. -/
theorem Ascending.put {α : Type} {k : Nat} {a : α} {l : List (Nat × α)} (h : Ascending l) : Ascending (put k a l) := by
  unfold Ascending at h ⊢
  induction l with
  | nil => exact List.pairwise_singleton _ _
  | cons y rest ih =>
    obtain ⟨n, b⟩ := y
    have hr := List.pairwise_cons.1 h
    unfold Machine.put
    split
    · next hlt =>
      refine List.pairwise_cons.2 ⟨fun x hx => ?_, h⟩
      rcases List.mem_cons.1 hx with hx | hx
      · subst hx; exact hlt
      · exact Nat.lt_trans hlt (hr.1 x hx)
    · split
      · next heq =>
        subst heq
        exact List.pairwise_cons.2 ⟨fun x hx => hr.1 x hx, hr.2⟩
      · refine List.pairwise_cons.2 ⟨fun x hx => ?_, ih hr.2⟩
        rcases mem_put hx with hx | hx
        · subst hx
          show n < k
          omega
        · exact hr.1 x hx

/-- Freeing an entry keeps a table ascending. -/
theorem Ascending.erase {α : Type} {k : Nat} {l : List (Nat × α)} (h : Ascending l) : Ascending (erase k l) :=
  List.Pairwise.filter _ h

/-- Changing the entries of a table keeps it ascending. -/
theorem Ascending.mapEntries {α : Type} {g : Nat × α → Nat × α} (hg : ∀ e, (g e).1 = e.1) {l : List (Nat × α)}
    (h : Ascending l) : Ascending (l.map g) := by
  unfold Ascending at h ⊢
  exact List.pairwise_map.2 (h.imp fun {a b} hab => by rw [hg, hg]; exact hab)

theorem Ascending.nil {α : Type} : Ascending ([] : List (Nat × α)) := List.Pairwise.nil

/-! ### Sets -/

theorem mem_insertAsc {α : Type} {key : α → Nat} {x y : α} {l : List α} (h : y ∈ insertAsc key x l) : y = x ∨ y ∈ l := by
  induction l with
  | nil => exact .inl (by simpa [insertAsc] using h)
  | cons z rest ih =>
    unfold insertAsc at h
    split at h
    · rcases List.mem_cons.1 h with h | h
      · exact .inl h
      · exact .inr h
    · split at h
      · rcases List.mem_cons.1 h with h | h
        · exact .inl h
        · exact .inr (List.mem_cons_of_mem _ h)
      · rcases List.mem_cons.1 h with h | h
        · exact .inr (h ▸ List.mem_cons_self)
        · rcases ih h with h | h
          · exact .inl h
          · exact .inr (List.mem_cons_of_mem _ h)

theorem insertAsc_mem_self (k : Nat) (l : List Nat) : k ∈ insertAsc id k l := by
  induction l with
  | nil => simp [insertAsc]
  | cons z rest ih =>
    unfold insertAsc
    split
    · simp
    · split
      · simp
      · exact List.mem_cons_of_mem _ ih

theorem insertAsc_mem_of_mem {k m : Nat} {l : List Nat} (h : m ∈ l) : m ∈ insertAsc id k l := by
  induction l with
  | nil => cases h
  | cons z rest ih =>
    unfold insertAsc
    split
    · exact List.mem_cons_of_mem _ h
    · split
      · next heq =>
        have : k = z := heq
        rw [this]; exact h
      · rcases List.mem_cons.1 h with h | h
        · subst h; exact List.mem_cons_self
        · exact List.mem_cons_of_mem _ (ih h)

/-- The members of a set of numbers after one is put in. -/
theorem mem_insertAsc_iff (k m : Nat) (l : List Nat) : m ∈ insertAsc id k l ↔ m = k ∨ m ∈ l :=
  ⟨fun h => mem_insertAsc h, fun h => h.elim (fun h => h ▸ insertAsc_mem_self k l) insertAsc_mem_of_mem⟩

theorem pairwise_insertAsc {k : Nat} {l : List Nat} (h : l.Pairwise (· < ·)) : (insertAsc id k l).Pairwise (· < ·) := by
  induction l with
  | nil => exact List.pairwise_singleton _ _
  | cons z rest ih =>
    have hr := List.pairwise_cons.1 h
    unfold insertAsc
    split
    · next hlt =>
      refine List.pairwise_cons.2 ⟨fun x hx => ?_, h⟩
      rcases List.mem_cons.1 hx with hx | hx
      · subst hx; exact hlt
      · exact Nat.lt_trans hlt (hr.1 x hx)
    · split
      · next heq =>
        have : k = z := heq
        rw [this]; exact h
      · next h1 h2 =>
        refine List.pairwise_cons.2 ⟨fun x hx => ?_, ih hr.2⟩
        rcases mem_insertAsc hx with hx | hx
        · subst hx
          have h1' : ¬ x < z := h1
          have h2' : ¬ x = z := h2
          omega
        · exact hr.1 x hx

/-! ### The bytes of the store -/

theorem Memory.wf_iff (mem : List Host.Cell) : Memory.wf mem = true ↔ Ascending mem ∧ ∀ c ∈ mem, c.2 ≠ unlisted := by
  unfold Memory.wf Ascending
  simp [List.all_eq_true]

theorem Memory.wf_nil : Memory.wf [] = true := by decide

/-- A byte written reads back, and every other byte reads as before. -/
theorem readByte_writeByte (mem : List Host.Cell) (a x : Nat) (b : Byte) :
    readByte (writeByte mem a b) x = if x = a then b else readByte mem x := by
  unfold readByte writeByte
  split
  · next hb =>
    rw [find_erase]
    split
    · simp [hb]
    · rfl
  · rw [find_put]
    split <;> rfl

theorem Memory.wf_writeByte {mem : List Host.Cell} {a : Nat} {b : Byte} (h : Memory.wf mem = true) :
    Memory.wf (writeByte mem a b) = true := by
  rw [Memory.wf_iff] at h ⊢
  unfold writeByte
  split
  · exact ⟨h.1.erase, fun c hc => h.2 c (List.mem_filter.1 hc).1⟩
  · next hb =>
    refine ⟨h.1.put, fun c hc => ?_⟩
    rcases mem_put hc with hc | hc
    · rw [hc]; exact hb
    · exact h.2 c hc

theorem Memory.wf_writeBytes {mem : List Host.Cell} {a : Nat} {l : List Byte} (h : Memory.wf mem = true) :
    Memory.wf (writeBytes mem a l) = true := by
  induction l generalizing mem a with
  | nil => exact h
  | cons b rest ih => exact ih (Memory.wf_writeByte h)

theorem Memory.wf_writeFrameBytes {mem : List Host.Cell} {extent : List Page} {x : Nat} {l : List Byte} (h : Memory.wf mem = true) :
    Memory.wf (writeFrameBytes mem extent x l) = true := by
  induction l generalizing mem x with
  | nil => exact h
  | cons b rest ih =>
    refine ih ?_
    split
    · exact Memory.wf_writeByte h
    · exact h

/-- Bytes written from an address on read back in their places, and every other byte reads as before. -/
theorem readByte_writeBytes (mem : List Host.Cell) (a x : Nat) (l : List Byte) :
    readByte (writeBytes mem a l) x = if a ≤ x ∧ x < a + l.length then l.getD (x - a) 0 else readByte mem x := by
  induction l generalizing mem a with
  | nil => rw [if_neg (by simp)]; rfl
  | cons b rest ih =>
    show readByte (writeBytes (writeByte mem a b) (a + 1) rest) x = _
    rw [ih, readByte_writeByte]
    by_cases hx : x = a
    · subst hx
      simp
    · rw [if_neg hx]
      by_cases h : a + 1 ≤ x ∧ x < a + 1 + rest.length
      · rw [if_pos h, if_pos (by simp; omega)]
        obtain ⟨k, hk⟩ : ∃ k, x - a = k + 1 := ⟨x - a - 1, by omega⟩
        have : x - (a + 1) = k := by omega
        rw [hk, this]
        rfl
      · rw [if_neg h, if_neg (by simp; omega)]

end Sys2Proof.Machine
end

