-- ==== Sys2Proof/Laws/Calm.lean ====
section
/-! SUPPORT. What the shared operations leave alone, said once: four relations between the state before and after, and the elementary
updates that keep each. StoreCalm is what the Image Store keeps, CardCalm what the card links keep, MoneyCalm what the order book, the
lines and the tenders keep, LineCalm what a change of a line's mode keeps, SheetCalm what dispatch keeps, and Calm what every one of
them keeps. -/

namespace Sys2Proof.Machine

/-- What every shared operation keeps: the steady parts of the state, and the canonical forms of flags and tables. -/
structure Calm (s t : State) : Prop extends Steady s t where
  flagsSound  : FlagsSound s → FlagsSound t
  tablesSound : TablesSound s → TablesSound t

/-- What the operations of the card links keep besides. -/
structure CardCalm (s t : State) : Prop extends Calm s t where
  book    : t.book = s.book
  lines   : t.lines = s.lines
  tenders : t.tenders = s.tenders
  engines : t.engines = s.engines
  ready   : t.ready = s.ready
  thermal : t.thermal = s.thermal
  bus     : t.bus = s.bus
  choices : t.choices = s.choices

/-- The part of a Slot record that only the card's own events change: all but the Import Queue and the head's progress. -/
def Slot.setup (t : Slot) : Slot := { t with importQueue := [], progress := none }

/-- What the operations of the Image Store keep besides. -/
structure StoreCalm (s t : State) : Prop extends CardCalm s t where
  slotSetup : ∀ i, (t.slot i).setup = (s.slot i).setup

/-- What a change of a payment line's mode keeps besides. -/
structure LineCalm (s t : State) : Prop extends Calm s t where
  store   : t.store = s.store
  cards   : t.cards = s.cards
  engines : t.engines = s.engines
  thermal : t.thermal = s.thermal
  bus     : t.bus = s.bus
  choices : t.choices = s.choices

/-- The part of a line record that only SET LINE, the load and the input pins change. -/
def PayLine.setup (p : PayLine) : Option LineMode × Bool × Bool × Bool := (p.mode, p.enable, p.dsrInput, p.cts)

/-- What the operations of orders, payment lines and tenders keep besides. -/
structure MoneyCalm (s t : State) : Prop extends LineCalm s t where
  lineSetup : ∀ i, (t.line i).setup = (s.line i).setup

/-- What dispatch, the raster channels and the outcomes of sheets keep besides. -/
structure SheetCalm (s t : State) : Prop extends Calm s t where
  thermal : t.thermal = s.thermal
  bus     : t.bus = s.bus
  setup   : ∀ e, (t.engine e).setup = (s.engine e).setup

/-! ### The relations are reflexive and transitive -/

theorem Steady.refl (s : State) : Steady s s := ⟨rfl, rfl, rfl, rfl, rfl, rfl, rfl, fun _ h => h, fun _ h => h⟩

theorem Steady.trans {r s t : State} (h : Steady r s) (k : Steady s t) : Steady r t where
  part := k.part.trans h.part
  params := k.params.trans h.params
  loader := k.loader.trans h.loader
  pending := k.pending.trans h.pending
  prices := k.prices.trans h.prices
  mem := k.mem.trans h.mem
  traffic := by
    rw [k.traffic]
    conv_lhs => rw [h.traffic]
  flags x hx := k.flags x (h.flags x hx)
  conditions c hc := k.conditions c (h.conditions c hc)

theorem Calm.refl (s : State) : Calm s s := ⟨Steady.refl s, id, id⟩

theorem Calm.trans {r s t : State} (h : Calm r s) (k : Calm s t) : Calm r t :=
  ⟨h.toSteady.trans k.toSteady, fun x => k.flagsSound (h.flagsSound x), fun x => k.tablesSound (h.tablesSound x)⟩

theorem CardCalm.refl (s : State) : CardCalm s s := ⟨Calm.refl s, rfl, rfl, rfl, rfl, rfl, rfl, rfl, rfl⟩

theorem CardCalm.trans {r s t : State} (h : CardCalm r s) (k : CardCalm s t) : CardCalm r t :=
  ⟨h.toCalm.trans k.toCalm, k.book.trans h.book, k.lines.trans h.lines, k.tenders.trans h.tenders, k.engines.trans h.engines,
    k.ready.trans h.ready, k.thermal.trans h.thermal, k.bus.trans h.bus, k.choices.trans h.choices⟩

theorem StoreCalm.refl (s : State) : StoreCalm s s := ⟨CardCalm.refl s, fun _ => rfl⟩

theorem StoreCalm.trans {r s t : State} (h : StoreCalm r s) (k : StoreCalm s t) : StoreCalm r t :=
  ⟨h.toCardCalm.trans k.toCardCalm, fun i => (k.slotSetup i).trans (h.slotSetup i)⟩

theorem CardCalm.store {r s t : State} (h : CardCalm r s) (k : StoreCalm s t) : CardCalm r t := h.trans k.toCardCalm

theorem LineCalm.refl (s : State) : LineCalm s s := ⟨Calm.refl s, rfl, rfl, rfl, rfl, rfl, rfl⟩

theorem LineCalm.trans {r s t : State} (h : LineCalm r s) (k : LineCalm s t) : LineCalm r t :=
  ⟨h.toCalm.trans k.toCalm, k.store.trans h.store, k.cards.trans h.cards, k.engines.trans h.engines, k.thermal.trans h.thermal,
    k.bus.trans h.bus, k.choices.trans h.choices⟩

theorem MoneyCalm.refl (s : State) : MoneyCalm s s := ⟨LineCalm.refl s, fun _ => rfl⟩

theorem MoneyCalm.trans {r s t : State} (h : MoneyCalm r s) (k : MoneyCalm s t) : MoneyCalm r t :=
  ⟨h.toLineCalm.trans k.toLineCalm, fun i => (k.lineSetup i).trans (h.lineSetup i)⟩

theorem LineCalm.money {r s t : State} (h : LineCalm r s) (k : MoneyCalm s t) : LineCalm r t := h.trans k.toLineCalm

theorem SheetCalm.refl (s : State) : SheetCalm s s := ⟨Calm.refl s, rfl, rfl, fun _ => rfl⟩

theorem SheetCalm.trans {r s t : State} (h : SheetCalm r s) (k : SheetCalm s t) : SheetCalm r t :=
  ⟨h.toCalm.trans k.toCalm, k.thermal.trans h.thermal, k.bus.trans h.bus, fun e => (k.setup e).trans (h.setup e)⟩

theorem CardCalm.toSheet {s t : State} (h : CardCalm s t) : SheetCalm s t :=
  ⟨h.toCalm, h.thermal, h.bus, fun e => by unfold State.engine; rw [h.engines]⟩

theorem LineCalm.toSheet {s t : State} (h : LineCalm s t) : SheetCalm s t :=
  ⟨h.toCalm, h.thermal, h.bus, fun e => by unfold State.engine; rw [h.engines]⟩

theorem SheetCalm.store {r s t : State} (h : SheetCalm r s) (k : StoreCalm s t) : SheetCalm r t := h.trans k.toCardCalm.toSheet

theorem SheetCalm.card {r s t : State} (h : SheetCalm r s) (k : CardCalm s t) : SheetCalm r t := h.trans k.toSheet

theorem SheetCalm.money {r s t : State} (h : SheetCalm r s) (k : MoneyCalm s t) : SheetCalm r t := h.trans k.toLineCalm.toSheet

theorem Calm.sheet {r s t : State} (h : Calm r s) (k : SheetCalm s t) : Calm r t := h.trans k.toCalm

/-- A relation kept by every step of a fold is kept by the fold. -/
theorem foldl_keeps {α : Type} {P : State → Prop} {f : State → α → State} (hf : ∀ t a, P t → P (f t a)) (l : List α) {s : State}
    (h : P s) : P (l.foldl f s) := by
  induction l generalizing s with
  | nil => exact h
  | cons a rest ih => exact ih (hf s a h)

theorem forEach_keeps {α : Type} {P : State → Prop} {f : α → State → State} (hf : ∀ a t, P t → P (f a t)) (l : List α) {s : State}
    (h : P s) : P (s.forEach l f) := foldl_keeps (fun t a ht => hf a t ht) l h

/-- What every step keeps, and the model's choice counter does not matter to, an order chosen freely keeps. -/
theorem forEachFreely_keeps {α : Type} {P : State → Prop} {f : α → State → State} (hf : ∀ a t, P t → P (f a t))
    (hc : ∀ (t : State) (c : Nat), P t → P { t with choices := c }) (l : List α) {s : State} (h : P s) :
    P (s.forEachFreely l f) := foldl_keeps (fun t a ht => hf a t ht) _ (hc _ _ h)

/-! ### Flags and conditions -/

theorem steady_setFlag (s : State) (k : Nat) : Steady s (s.setFlag k) :=
  ⟨rfl, rfl, rfl, rfl, rfl, rfl, rfl, fun _ h => insertAsc_mem_of_mem h, fun _ h => h⟩

theorem hasCondition_setCondition (s : State) (c d : Condition) :
    (s.setCondition c).hasCondition d = (decide (d = c) || s.hasCondition d) := by
  simp only [State.hasCondition, State.setCondition, Condition.mask, BitVec.getLsbD_or, BitVec.getLsbD_twoPow]
  cases c <;> cases d <;> simp [Condition.bit]

theorem steady_setCondition (s : State) (c : Condition) : Steady s (s.setCondition c) :=
  ⟨rfl, rfl, rfl, rfl, rfl, rfl, rfl, fun _ h => insertAsc_mem_of_mem h, fun d h => by rw [hasCondition_setCondition, h, Bool.or_true]⟩

theorem calm_setFlag (s : State) (k : Nat) : Calm s (s.setFlag k) :=
  ⟨steady_setFlag s k, fun h => pairwise_insertAsc h, id⟩

theorem calm_setCondition (s : State) (c : Condition) : Calm s (s.setCondition c) :=
  ⟨steady_setCondition s c, fun h => pairwise_insertAsc h, id⟩

section
variable {r s : State}

theorem StoreCalm.setFlag {k : Nat} (h : StoreCalm r s) : StoreCalm r (s.setFlag k) :=
  h.trans ⟨⟨calm_setFlag s k, rfl, rfl, rfl, rfl, rfl, rfl, rfl, rfl⟩, fun _ => rfl⟩

theorem StoreCalm.setFlagIf {c : Bool} {k : Nat} (h : StoreCalm r s) : StoreCalm r (s.setFlagIf c k) := by
  unfold State.setFlagIf; split
  · exact h.setFlag
  · exact h

theorem StoreCalm.setCondition {c : Condition} (h : StoreCalm r s) : StoreCalm r (s.setCondition c) :=
  h.trans ⟨⟨calm_setCondition s c, rfl, rfl, rfl, rfl, rfl, rfl, rfl, rfl⟩, fun _ => rfl⟩

/-- A new store with the same bytes, whose Frame Table is ascending where the old one is. -/
theorem StoreCalm.withStore (h : StoreCalm r s) (t : Store) (hm : t.mem = s.store.mem)
    (hf : Ascending s.store.frames → Ascending t.frames) : StoreCalm r { s with store := t } :=
  h.trans ⟨⟨⟨⟨rfl, rfl, rfl, rfl, rfl, hm, rfl, fun _ h => h, fun _ h => h⟩, id, fun h => ⟨hf h.1, h.2⟩⟩,
    rfl, rfl, rfl, rfl, rfl, rfl, rfl, rfl⟩, fun _ => rfl⟩

theorem slot_withSlots (s : State) (i x : Fin 8) (q : Slot) :
    State.slot x { s with cards := { s.cards with slots := s.cards.slots.set i q } } = if x = i then q else s.slot x := by
  unfold State.slot
  by_cases h : x = i
  · subst h; simp
  · rw [if_neg h]
    exact Vector.getElem_set_ne i.isLt x.isLt (fun hv => h (Fin.ext hv.symm))

theorem CardCalm.withCards (h : CardCalm r s) (c : Cards) : CardCalm r { s with cards := c } :=
  h.trans ⟨⟨⟨rfl, rfl, rfl, rfl, rfl, rfl, rfl, fun _ h => h, fun _ h => h⟩, id, id⟩, rfl, rfl, rfl, rfl, rfl, rfl, rfl, rfl⟩

/-- A Slot record changed outside its setup. -/
theorem StoreCalm.setSlot {i : Fin 8} {q : Slot} (h : StoreCalm r s) (hq : q.setup = (s.slot i).setup) :
    StoreCalm r (s.setSlot i q) := by
  unfold State.setSlot
  refine StoreCalm.setFlagIf (h.trans ⟨CardCalm.withCards (.refl _) _, fun x => ?_⟩)
  rw [slot_withSlots]
  split
  · next hx => rw [hx, hq]
  · rfl

theorem StoreCalm.modLink {k : Fin 4} {g : CardLink → CardLink} (h : StoreCalm r s) : StoreCalm r (s.modLink k g) :=
  h.trans ⟨CardCalm.withCards (.refl _) _, fun _ => rfl⟩

theorem LineCalm.setFlag {k : Nat} (h : LineCalm r s) : LineCalm r (s.setFlag k) :=
  h.trans ⟨calm_setFlag s k, rfl, rfl, rfl, rfl, rfl, rfl⟩

theorem LineCalm.withLines (h : LineCalm r s) (l : Vector PayLine 4) : LineCalm r { s with lines := l } :=
  h.trans ⟨⟨⟨rfl, rfl, rfl, rfl, rfl, rfl, rfl, fun _ h => h, fun _ h => h⟩, id, id⟩, rfl, rfl, rfl, rfl, rfl, rfl⟩

theorem LineCalm.modLine {i : Fin 4} {g : PayLine → PayLine} (h : LineCalm r s) : LineCalm r (s.modLine i g) := by
  unfold State.modLine State.setLineRec State.setFlagIf; split
  · exact LineCalm.setFlag (h.withLines _)
  · exact h.withLines _

theorem MoneyCalm.setFlag {k : Nat} (h : MoneyCalm r s) : MoneyCalm r (s.setFlag k) :=
  h.trans ⟨⟨calm_setFlag s k, rfl, rfl, rfl, rfl, rfl, rfl⟩, fun _ => rfl⟩

theorem MoneyCalm.setFlagIf {c : Bool} {k : Nat} (h : MoneyCalm r s) : MoneyCalm r (s.setFlagIf c k) := by
  unfold State.setFlagIf; split
  · exact h.setFlag
  · exact h

theorem MoneyCalm.setCondition {c : Condition} (h : MoneyCalm r s) : MoneyCalm r (s.setCondition c) :=
  h.trans ⟨⟨calm_setCondition s c, rfl, rfl, rfl, rfl, rfl, rfl⟩, fun _ => rfl⟩

/-- A new book whose Order Table is ascending where the old one is. -/
theorem MoneyCalm.withBook (h : MoneyCalm r s) (b : Book) (hb : Ascending s.book.orders → Ascending b.orders)
    (hp : b.prices = s.book.prices := by rfl) : MoneyCalm r { s with book := b } :=
  h.trans ⟨⟨⟨⟨rfl, rfl, rfl, rfl, hp, rfl, rfl, fun _ h => h, fun _ h => h⟩, id, fun h => ⟨h.1, hb h.2.1, h.2.2⟩⟩,
    rfl, rfl, rfl, rfl, rfl, rfl⟩, fun _ => rfl⟩

/-- A new Tender Unit whose table is ascending where the old one is. -/
theorem MoneyCalm.withTenders (h : MoneyCalm r s) (u : TenderUnit)
    (hu : Ascending s.tenders.tenders → Ascending u.tenders) : MoneyCalm r { s with tenders := u } :=
  h.trans ⟨⟨⟨⟨rfl, rfl, rfl, rfl, rfl, rfl, rfl, fun _ h => h, fun _ h => h⟩, id, fun h => ⟨h.1, h.2.1, hu h.2.2⟩⟩,
    rfl, rfl, rfl, rfl, rfl, rfl⟩, fun _ => rfl⟩

theorem MoneyCalm.withReady (h : MoneyCalm r s) (l : List (Nat × Nat)) : MoneyCalm r { s with ready := l } :=
  h.trans ⟨⟨⟨⟨rfl, rfl, rfl, rfl, rfl, rfl, rfl, fun _ h => h, fun _ h => h⟩, id, id⟩, rfl, rfl, rfl, rfl, rfl, rfl⟩, fun _ => rfl⟩

theorem line_withLines (s : State) (i x : Fin 4) (q : PayLine) :
    State.line x { s with lines := s.lines.set i q } = if x = i then q else s.line x := by
  unfold State.line
  by_cases h : x = i
  · subst h; simp
  · rw [if_neg h]
    exact Vector.getElem_set_ne i.isLt x.isLt (fun hv => h (Fin.ext hv.symm))

/-- The line records after one is stored. -/
theorem line_setLineRec (s : State) (i x : Fin 4) (q : PayLine) :
    (s.setLineRec i q).line x = if x = i then q else s.line x := by
  rw [← line_withLines]
  unfold State.setLineRec State.setFlagIf
  split <;> rfl

theorem line_modLine (s : State) (i x : Fin 4) (g : PayLine → PayLine) :
    (s.modLine i g).line x = if x = i then g (s.line i) else s.line x := line_setLineRec s i x _

/-- The Slot records after one is changed. -/
theorem slot_modSlot (s : State) (i x : Fin 8) (g : Slot → Slot) :
    (s.modSlot i g).slot x = if x = i then g (s.slot i) else s.slot x := by
  rw [← slot_withSlots]
  unfold State.modSlot State.setSlot State.setFlagIf
  split <;> rfl

/-- A line record changed outside its setup. -/
theorem MoneyCalm.setLineRec {i : Fin 4} {q : PayLine} (h : MoneyCalm r s) (hq : q.setup = (s.line i).setup) :
    MoneyCalm r (s.setLineRec i q) := by
  refine h.trans ⟨?_, fun x => ?_⟩
  · unfold State.setLineRec State.setFlagIf; split
    · exact LineCalm.setFlag (LineCalm.withLines (.refl _) _)
    · exact LineCalm.withLines (.refl _) _
  · rw [line_setLineRec]
    split
    · next hx => rw [hx, hq]
    · rfl

theorem MoneyCalm.modLine {i : Fin 4} {g : PayLine → PayLine} (h : MoneyCalm r s) (hg : ∀ p, (g p).setup = p.setup) :
    MoneyCalm r (s.modLine i g) := h.setLineRec (hg _)

theorem SheetCalm.withChoices (h : SheetCalm r s) (c : Nat) : SheetCalm r { s with choices := c } :=
  h.trans ⟨⟨⟨rfl, rfl, rfl, rfl, rfl, rfl, rfl, fun _ h => h, fun _ h => h⟩, id, id⟩, rfl, rfl, fun _ => rfl⟩

theorem SheetCalm.setFlagIf {c : Bool} {k : Nat} (h : SheetCalm r s) : SheetCalm r (s.setFlagIf c k) :=
  h.store (StoreCalm.setFlagIf (.refl _))

theorem engine_withEngines (s : State) (e x : Fin 3) (q : Engine) :
    State.engine x { s with engines := s.engines.set e q } = if x = e then q else s.engine x := by
  unfold State.engine
  by_cases h : x = e
  · subst h; simp
  · rw [if_neg h]
    exact Vector.getElem_set_ne e.isLt x.isLt (fun hv => h (Fin.ext hv.symm))

theorem engine_setEngineRec (s : State) (e x : Fin 3) (q : Engine) :
    (s.setEngineRec e q).engine x = if x = e then q else s.engine x := by
  rw [← engine_withEngines]
  unfold State.setEngineRec State.setFlagIf
  split <;> rfl

/-- The Engine records after one is changed. -/
theorem engine_modEngine (s : State) (e x : Fin 3) (g : Engine → Engine) :
    (s.modEngine e g).engine x = if x = e then g (s.engine e) else s.engine x := engine_setEngineRec s e x _

/-- An Engine record changed outside its setup. -/
theorem SheetCalm.setEngineRec {e : Fin 3} {q : Engine} (h : SheetCalm r s) (hq : q.setup = (s.engine e).setup) :
    SheetCalm r (s.setEngineRec e q) := by
  unfold State.setEngineRec
  refine SheetCalm.setFlagIf (h.trans ⟨⟨⟨rfl, rfl, rfl, rfl, rfl, rfl, rfl, fun _ h => h, fun _ h => h⟩, id, id⟩, rfl, rfl, fun x => ?_⟩)
  rw [engine_withEngines]
  split
  · next hx => rw [hx, hq]
  · rfl

theorem SheetCalm.modEngine {e : Fin 3} {g : Engine → Engine} (h : SheetCalm r s) (hg : ∀ q, (g q).setup = q.setup) :
    SheetCalm r (s.modEngine e g) := h.setEngineRec (hg _)

theorem SheetCalm.modChannel {e : Fin 3} {g : Channel → Channel} (h : SheetCalm r s) : SheetCalm r (s.modChannel e g) :=
  h.modEngine fun _ => rfl

/-- Any change of an Engine record keeps what every operation keeps. -/
theorem Calm.modEngine {e : Fin 3} {g : Engine → Engine} (h : Calm r s) : Calm r (s.modEngine e g) := by
  unfold State.modEngine State.setEngineRec State.setFlagIf
  have k : Calm s { s with engines := s.engines.set e (g (s.engine e)) } :=
    ⟨⟨rfl, rfl, rfl, rfl, rfl, rfl, rfl, fun _ h => h, fun _ h => h⟩, id, id⟩
  split
  · exact (h.trans k).trans (calm_setFlag _ _)
  · exact h.trans k

theorem Calm.setCondition {c : Condition} (h : Calm r s) : Calm r (s.setCondition c) := h.trans (calm_setCondition s c)

theorem Calm.setFlag {k : Nat} (h : Calm r s) : Calm r (s.setFlag k) := h.trans (calm_setFlag s k)

theorem Calm.withBus (h : Calm r s) (b : Bus) : Calm r { s with bus := b } :=
  h.trans ⟨⟨rfl, rfl, rfl, rfl, rfl, rfl, rfl, fun _ h => h, fun _ h => h⟩, id, id⟩

theorem Calm.withThermal (h : Calm r s) (t : Thermal) : Calm r { s with thermal := t } :=
  h.trans ⟨⟨rfl, rfl, rfl, rfl, rfl, rfl, rfl, fun _ h => h, fun _ h => h⟩, id, id⟩

end

end Sys2Proof.Machine
end

