-- ==== Sys2Proof/Laws/ImageStore.lean ====
section
/-! SUPPORT. What each shared operation of the Image Store and of the card links leaves alone: one lemma for each, StoreCalm.<its name> for
the store's and CardCalm.<its name> for the card links'. -/

namespace Sys2Proof.Machine

section
variable {r s : State}

theorem StoreCalm.ite {c : Prop} [Decidable c] {x y : State} (hx : c → StoreCalm r x) (hy : ¬ c → StoreCalm r y) :
    StoreCalm r (if c then x else y) := by
  split
  · exact hx ‹_›
  · exact hy ‹_›

/-! ### Records -/

theorem StoreCalm.setAttr {p : Page} {a : PageAttr} (h : StoreCalm r s) : StoreCalm r (s.setAttr p a) := h.withStore _ rfl id

theorem StoreCalm.setFrame {n : Nat} {f : Frame} (h : StoreCalm r s) : StoreCalm r (s.setFrame n f) :=
  StoreCalm.setFlagIf (h.withStore _ rfl Ascending.put)

theorem StoreCalm.modFrame {n : Nat} {g : Frame → Frame} (h : StoreCalm r s) : StoreCalm r (s.modFrame n g) := by
  unfold State.modFrame; split
  · exact h
  · exact h.setFrame

theorem StoreCalm.dropFrame {n : Nat} (h : StoreCalm r s) : StoreCalm r (s.dropFrame n) :=
  StoreCalm.setFlag (h.withStore _ rfl Ascending.erase)

theorem StoreCalm.modSlot {i : Fin 8} {g : Slot → Slot} (h : StoreCalm r s) (hg : ∀ q, (g q).setup = q.setup) :
    StoreCalm r (s.modSlot i g) := h.setSlot (hg _)

/-! ### The store port -/

theorem StoreCalm.askPort {a : Access} (h : StoreCalm r s) : StoreCalm r (s.askPort a) := h.withStore _ rfl id

theorem StoreCalm.withdrawWaiting {f : Access → Bool} (h : StoreCalm r s) : StoreCalm r (s.withdrawWaiting f) := h.withStore _ rfl id

theorem StoreCalm.endAccess (h : StoreCalm r s) : StoreCalm r s.endAccess := h.withStore _ rfl id

theorem StoreCalm.gainWork {i : Fin 8} (h : StoreCalm r s) : StoreCalm r (s.gainWork i) := by
  unfold State.gainWork; dsimp only; split
  · exact h.modLink
  · exact h

theorem StoreCalm.frameAllocated {f : Frame} (h : StoreCalm r s) : StoreCalm r (s.frameAllocated f) := by
  unfold State.frameAllocated; split
  · exact h.gainWork
  · exact h

theorem StoreCalm.voidBlocks {n : Nat} (h : StoreCalm r s) : StoreCalm r (s.voidBlocks n) := h.withStore _ rfl id

theorem StoreCalm.freeBuffer {k : Fin 4} (h : StoreCalm r s) : StoreCalm r (s.freeBuffer k) := h.modLink

theorem StoreCalm.grantPort {fuel : Nat} (h : StoreCalm r s) : StoreCalm r (s.grantPort fuel) := by
  induction fuel generalizing s with
  | zero => exact h
  | succ n ih =>
    unfold State.grantPort
    split
    · dsimp only
      split
      · exact ih (StoreCalm.freeBuffer (h.withStore _ rfl id))
      · exact h.withStore _ rfl id
    · exact h

theorem StoreCalm.settlePort (h : StoreCalm r s) : StoreCalm r s.settlePort := h.grantPort

/-! ### The pools -/

theorem StoreCalm.judgeLow (h : StoreCalm r s) : StoreCalm r s.judgeLow := by
  unfold State.judgeLow; split
  · exact h.setCondition
  · exact h

theorem StoreCalm.noteScrub (h : StoreCalm r s) : StoreCalm r s.noteScrub := h.withStore _ rfl id

/-- With no scrub step in progress there is none to note that a page has left eligibility. -/
theorem State.noteScrub_idle (h : s.store.scrubStep = none) : s.noteScrub = s := by
  unfold State.noteScrub; rw [h, Option.map_none, ← h]

theorem StoreCalm.tryMigration (h : StoreCalm r s) : StoreCalm r s.tryMigration := by
  unfold State.tryMigration; split
  · split
    · exact h.setCondition
    · exact StoreCalm.askPort (StoreCalm.noteScrub (h.withStore _ rfl id))
  · exact h

theorem StoreCalm.joinSpares {p : Page} (h : StoreCalm r s) : StoreCalm r (s.joinSpares p) :=
  StoreCalm.tryMigration (h.withStore _ rfl id)

theorem StoreCalm.refillBy {fuel : Nat} (h : StoreCalm r s) : StoreCalm r (s.refillBy fuel) := by
  induction fuel generalizing s with
  | zero => exact h
  | succ n ih =>
    unfold State.refillBy
    split
    · split
      · exact h
      · exact ih (StoreCalm.judgeLow (StoreCalm.joinSpares (h.withStore _ rfl id)))
    · exact h

theorem StoreCalm.refill (h : StoreCalm r s) : StoreCalm r s.refill := h.refillBy

theorem StoreCalm.allocate {n : Nat} {f : Frame} (h : StoreCalm r s) : StoreCalm r (s.allocate n f) := by
  unfold State.allocate
  refine StoreCalm.frameAllocated (StoreCalm.judgeLow (StoreCalm.setFrame ?_))
  exact h.withStore _ rfl id

theorem StoreCalm.serveBy {fuel : Nat} (h : StoreCalm r s) : StoreCalm r (s.serveBy fuel) := by
  induction fuel generalizing s with
  | zero => exact h
  | succ n ih =>
    unfold State.serveBy
    split
    · exact h
    · split
      · exact ih (h.withStore _ rfl id)
      · split
        · exact ih (StoreCalm.allocate (h.withStore _ rfl id))
        · exact h

theorem StoreCalm.serveList (h : StoreCalm r s) : StoreCalm r s.serveList := h.serveBy

theorem StoreCalm.placePage {p : Page} (h : StoreCalm r s) : StoreCalm r (s.placePage p) := by
  unfold State.placePage; split
  · exact h.withStore _ rfl id
  · exact h.withStore _ rfl id

theorem StoreCalm.returnPage {p : Page} (h : StoreCalm r s) : StoreCalm r (s.returnPage p) := h.placePage.serveList.refill

theorem StoreCalm.returnPages {l : List Page} (h : StoreCalm r s) : StoreCalm r (s.returnPages l) :=
  foldl_keeps (fun _ _ k => k.returnPage) l h

theorem StoreCalm.handBack {p : Page} (h : StoreCalm r s) : StoreCalm r (s.handBack p) := by
  unfold State.handBack; split
  · exact h.joinSpares
  · exact h.returnPage

theorem StoreCalm.abandonMigration (h : StoreCalm r s) : StoreCalm r s.abandonMigration := by
  unfold State.abandonMigration; split
  · exact h
  · exact StoreCalm.tryMigration (StoreCalm.handBack (StoreCalm.withdrawWaiting (h.withStore _ rfl id)))

theorem StoreCalm.abandonMigrationOf {l : List Page} (h : StoreCalm r s) : StoreCalm r (s.abandonMigrationOf l) := by
  unfold State.abandonMigrationOf; split
  · split
    · exact h.abandonMigration
    · exact h
  · exact h

theorem StoreCalm.unqueueMigration {l : List Page} (h : StoreCalm r s) : StoreCalm r (s.unqueueMigration l) := h.withStore _ rfl id

/-! ### Return, retirement and damage -/

theorem StoreCalm.returnTest {n : Nat} (h : StoreCalm r s) : StoreCalm r (s.returnTest n) := by
  unfold State.returnTest; split
  · exact h
  · split
    · exact h.setFrame.noteScrub.returnPages
    · exact h

theorem StoreCalm.retireFrame {n : Nat} {f : Frame} (h : StoreCalm r s) : StoreCalm r (s.retireFrame n f) := by
  unfold State.retireFrame; dsimp only; split
  · exact h.unqueueMigration.abandonMigrationOf.modFrame
  · exact h.unqueueMigration.abandonMigrationOf.modFrame.noteScrub.returnPages.dropFrame

theorem StoreCalm.retireTest {n : Nat} (h : StoreCalm r s) : StoreCalm r (s.retireTest n) := by
  unfold State.retireTest; split
  · exact h
  · split
    · exact h.retireFrame
    · exact h

theorem StoreCalm.settleFrame {n : Nat} (h : StoreCalm r s) : StoreCalm r (s.settleFrame n) := by
  unfold State.settleFrame; dsimp only; split
  · split
    · exact h.returnTest.retireTest
    · exact h.returnTest
  · exact h.returnTest

theorem StoreCalm.settlePage {p : Page} (h : StoreCalm r s) : StoreCalm r (s.settlePage p) := by
  unfold State.settlePage; split
  · exact h.settleFrame
  · exact h

theorem StoreCalm.leaveImportQueue {n : Nat} {f : Frame} (h : StoreCalm r s) : StoreCalm r (s.leaveImportQueue n f) := by
  unfold State.leaveImportQueue; split
  · exact h
  · exact StoreCalm.gainWork (h.modSlot fun _ => rfl)

theorem StoreCalm.leaveWaitList {n : Nat} (h : StoreCalm r s) : StoreCalm r (s.leaveWaitList n) := by
  unfold State.leaveWaitList; dsimp only; split
  · exact StoreCalm.serveList (h.withStore _ rfl id)
  · exact h.withStore _ rfl id

theorem StoreCalm.damageFrame {n : Nat} {c : DamageCause} (h : StoreCalm r s) : StoreCalm r (s.damageFrame n c) := by
  unfold State.damageFrame; split
  · exact h
  · split
    · exact h
    · dsimp only
      refine StoreCalm.retireTest (StoreCalm.returnTest (StoreCalm.ite (fun _ => ?_) fun _ => ?_))
      · exact h.setFrame.voidBlocks.leaveImportQueue.leaveWaitList.unqueueMigration.abandonMigrationOf.withStore _ rfl id
      · exact h.setFrame.voidBlocks.leaveImportQueue.leaveWaitList.unqueueMigration.abandonMigrationOf

theorem StoreCalm.damageFrames {l : List Nat} {c : DamageCause} (h : StoreCalm r s) : StoreCalm r (s.damageFrames l c) :=
  foldl_keeps (fun _ _ k => k.damageFrame) l h

/-! ### Counts and errors -/

theorem StoreCalm.raiseReference {n : Nat} (h : StoreCalm r s) : StoreCalm r (s.raiseReference n) := h.modFrame

theorem StoreCalm.lowerReference {n : Nat} (h : StoreCalm r s) : StoreCalm r (s.lowerReference n) := h.modFrame.retireTest

theorem StoreCalm.raisePin {n : Nat} (h : StoreCalm r s) : StoreCalm r (s.raisePin n) := h.modFrame

theorem StoreCalm.lowerPin {n : Nat} (h : StoreCalm r s) : StoreCalm r (s.lowerPin n) := h.modFrame.returnTest.retireTest

theorem StoreCalm.raiseReader {p : Page} (h : StoreCalm r s) : StoreCalm r (s.raiseReader p) := h.setAttr

theorem StoreCalm.lowerReader {p : Page} (h : StoreCalm r s) : StoreCalm r (s.lowerReader p) := by
  unfold State.lowerReader; dsimp only; split
  · exact h.setAttr.withStore _ rfl id
  · exact h.setAttr

theorem StoreCalm.addWear {p : Page} {n : Nat} (h : StoreCalm r s) : StoreCalm r (s.addWear p n) := h.setAttr

theorem StoreCalm.condemn {p : Page} (h : StoreCalm r s) : StoreCalm r (s.condemn p) := h.setAttr

theorem StoreCalm.damageOwner {p : Page} (h : StoreCalm r s) : StoreCalm r (s.damageOwner p) := by
  unfold State.damageOwner; split
  · split
    · split
      · exact h.damageFrame
      · exact h
    · exact h
  · exact h

theorem StoreCalm.admitPage {p : Page} (h : StoreCalm r s) : StoreCalm r (s.admitPage p) := by
  unfold State.admitPage; split
  · dsimp only
    split
    · exact StoreCalm.tryMigration (h.withStore _ rfl id)
    · exact h.withStore _ rfl id
  · exact h

theorem StoreCalm.countErrors {p : Page} {e : ReadErrors} (h : StoreCalm r s) : StoreCalm r (s.countErrors p e) := by
  unfold State.countErrors; dsimp only
  have h1 : StoreCalm r (if e.correctable = 0 then s else s.addWear p e.correctable) :=
    StoreCalm.ite (fun _ => h) fun _ => h.addWear
  exact StoreCalm.ite (fun _ => h1) fun _ => h1.condemn

theorem StoreCalm.applyReads {l : List (Page × ReadErrors)} (h : StoreCalm r s) : StoreCalm r (s.applyReads l) :=
  foldl_keeps (fun _ _ k => k.admitPage)  _ (foldl_keeps (fun _ _ k => k.damageOwner) _ (foldl_keeps (fun _ _ k => k.countErrors) l h))

theorem StoreCalm.applyErrors {p : Page} {e : ReadErrors} (h : StoreCalm r s) : StoreCalm r (s.applyErrors p e) := h.applyReads

/-! ### Creation and the patrol -/

theorem StoreCalm.createFrameAt {n : Nat} {o : Origin} {b : Nat} (h : StoreCalm r s) : StoreCalm r (s.createFrameAt n o b) := by
  unfold State.createFrameAt; dsimp only; split
  · exact h.allocate
  · exact h.setFrame.withStore _ rfl id

theorem StoreCalm.startScrubTimer (h : StoreCalm r s) : StoreCalm r s.startScrubTimer := h.withStore _ rfl id

theorem StoreCalm.beginScrub {p : Page} {b : Bool} (h : StoreCalm r s) : StoreCalm r (s.beginScrub p b) :=
  StoreCalm.askPort (h.withStore _ rfl id)

theorem StoreCalm.searchScrub (h : StoreCalm r s) : StoreCalm r s.searchScrub := by
  unfold State.searchScrub; split
  · exact h.startScrubTimer
  · exact StoreCalm.beginScrub (h.withStore _ rfl id)

theorem StoreCalm.stopOnErrors {st : ScrubStep} (h : StoreCalm r s) : StoreCalm r (s.stopOnErrors st) := by
  unfold State.stopOnErrors; split
  · exact h.withStore _ rfl id
  · exact h

theorem StoreCalm.afterScrub {b : Bool} (h : StoreCalm r s) : StoreCalm r (s.afterScrub b) := by
  unfold State.afterScrub; split
  · exact StoreCalm.searchScrub (h.withStore _ rfl id)
  · split
    · exact h
    · exact h.startScrubTimer

theorem StoreCalm.resumeScrub (h : StoreCalm r s) : StoreCalm r s.resumeScrub := by
  unfold State.resumeScrub; split
  · split
    · exact StoreCalm.startScrubTimer (h.withStore _ rfl id)
    · exact h.withStore _ rfl id
  · exact h

theorem StoreCalm.scrubTimerExpired (h : StoreCalm r s) : StoreCalm r s.scrubTimerExpired := by
  unfold State.scrubTimerExpired; dsimp only; split
  · exact StoreCalm.withStore (h.withStore _ rfl id) _ rfl id
  · exact StoreCalm.searchScrub (h.withStore _ rfl id)

theorem StoreCalm.completeMigration {m : Migration} (h : StoreCalm r s) : StoreCalm r (s.completeMigration m) := by
  unfold State.completeMigration; dsimp only
  refine StoreCalm.tryMigration (StoreCalm.refill ?_)
  split
  · exact StoreCalm.withStore (h.modFrame.withStore _ rfl id) _ rfl id
  · exact StoreCalm.withStore (h.modFrame.withStore _ rfl id) _ rfl id

theorem StoreCalm.returnExcess {fuel : Nat} (h : StoreCalm r s) : StoreCalm r (s.returnExcess fuel) := by
  induction fuel generalizing s with
  | zero => exact h
  | succ n ih =>
    unfold State.returnExcess
    split
    · exact h
    · split
      · exact h
      · exact ih (StoreCalm.returnPage (h.withStore _ rfl id))

theorem StoreCalm.rescrub (h : StoreCalm r s) : StoreCalm r s.rescrub := by
  unfold State.rescrub; split
  · exact h
  · split
    · exact h.withStore _ rfl id
    · exact h
  · split
    · exact StoreCalm.startScrubTimer (h.withStore _ rfl id)
    · exact h

/-! ### Card links -/

theorem CardCalm.ite {c : Prop} [Decidable c] {x y : State} (hx : c → CardCalm r x) (hy : ¬ c → CardCalm r y) :
    CardCalm r (if c then x else y) := by
  split
  · exact hx ‹_›
  · exact hy ‹_›

theorem CardCalm.modSlot {i : Fin 8} {g : Slot → Slot} (h : CardCalm r s) : CardCalm r (s.modSlot i g) := by
  unfold State.modSlot State.setSlot
  exact CardCalm.store (CardCalm.withCards h _) (StoreCalm.setFlagIf (.refl _))

theorem CardCalm.modLink {k : Fin 4} {g : CardLink → CardLink} (h : CardCalm r s) : CardCalm r (s.modLink k g) := h.withCards _

theorem CardCalm.setFrame {n : Nat} {f : Frame} (h : CardCalm r s) : CardCalm r (s.setFrame n f) := h.store (.setFrame (.refl _))

theorem CardCalm.damageFrame {n : Nat} {c : DamageCause} (h : CardCalm r s) : CardCalm r (s.damageFrame n c) :=
  h.store (.damageFrame (.refl _))

theorem CardCalm.damageFrames {l : List Nat} {c : DamageCause} (h : CardCalm r s) : CardCalm r (s.damageFrames l c) :=
  h.store (.damageFrames (.refl _))

theorem CardCalm.askPort {a : Access} (h : CardCalm r s) : CardCalm r (s.askPort a) := h.store (.askPort (.refl _))

theorem CardCalm.leaveImportQueue {n : Nat} {f : Frame} (h : CardCalm r s) : CardCalm r (s.leaveImportQueue n f) :=
  h.store (.leaveImportQueue (.refl _))

theorem CardCalm.retireTest {n : Nat} (h : CardCalm r s) : CardCalm r (s.retireTest n) := h.store (.retireTest (.refl _))

theorem CardCalm.settlePort (h : CardCalm r s) : CardCalm r s.settlePort := h.store (.settlePort (.refl _))

theorem CardCalm.modProgress {i : Fin 8} {g : Progress → Progress} (h : CardCalm r s) : CardCalm r (s.modProgress i g) := h.modSlot

theorem CardCalm.startRun {k : Fin 4} {odd : Bool} {n : Nat} {f : Frame} (h : CardCalm r s) :
    CardCalm r (s.startRun k odd n f) := by
  unfold State.startRun; dsimp only
  exact CardCalm.modLink (CardCalm.modSlot (CardCalm.ite (fun _ => h.setFrame) fun _ => h))

theorem CardCalm.sendHalt {k : Fin 4} {odd : Bool} (h : CardCalm r s) : CardCalm r (s.sendHalt k odd) := h.modProgress.modLink

theorem CardCalm.setLastError {i : Fin 8} {e : LinkError} (h : CardCalm r s) : CardCalm r (s.setLastError i e) := h.modSlot

theorem CardCalm.importFailed {i : Fin 8} {n : Nat} (h : CardCalm r s) : CardCalm r (s.importFailed i n) := by
  unfold State.importFailed; dsimp only; split
  · exact h.damageFrame.modSlot
  · exact h.damageFrame.modSlot.damageFrames.modSlot

theorem CardCalm.countAttempt {i : Fin 8} (h : CardCalm r s) : CardCalm r (s.countAttempt i) := by
  unfold State.countAttempt; split
  · split
    · exact h.damageFrame
    · split
      · exact h.modProgress
      · exact h.importFailed
  · exact h

theorem CardCalm.runOver {k : Fin 4} {odd : Bool} (h : CardCalm r s) : CardCalm r (s.runOver k odd) := h.countAttempt.modLink

theorem CardCalm.runFailed {k : Fin 4} {odd : Bool} {e : LinkError} (h : CardCalm r s) : CardCalm r (s.runFailed k odd e) := by
  unfold State.runFailed; dsimp only; split
  · exact h.setLastError.runOver
  · exact h.setLastError.sendHalt

theorem CardCalm.runGranted {k : Fin 4} {odd : Bool} {n : Nat} (h : CardCalm r s) : CardCalm r (s.runGranted k odd n) := by
  unfold State.runGranted; split
  · exact h.sendHalt
  · exact h.modLink

theorem CardCalm.goodBlock {k : Fin 4} {odd : Bool} {n : Nat} {l : List Byte} (h : CardCalm r s) :
    CardCalm r (s.goodBlock k odd n l) := by
  unfold State.goodBlock; dsimp only; split
  · split
    · exact h.askPort.modSlot.modLink
    · exact h.askPort.modSlot.modLink
  · exact h

theorem CardCalm.identifyFailed {k : Fin 4} {odd : Bool} {e : LinkError} (h : CardCalm r s) :
    CardCalm r (s.identifyFailed k odd e) := h.modLink.modSlot

theorem CardCalm.identifySucceeded {k : Fin 4} {odd : Bool} {c : Word32} {l : List Byte} (h : CardCalm r s) :
    CardCalm r (s.identifySucceeded k odd c l) := h.modLink.modSlot

theorem CardCalm.exchangeFailed {k : Fin 4} {e : LinkError} (h : CardCalm r s) : CardCalm r (s.exchangeFailed k e) := by
  unfold State.exchangeFailed; split
  · exact h.identifyFailed
  · exact h.identifyFailed
  · exact h.runFailed
  · exact h.setLastError.runOver
  · exact h
  · exact h

theorem CardCalm.exchangeSucceeded {k : Fin 4} {c : Word32} {l : List Byte} (h : CardCalm r s) :
    CardCalm r (s.exchangeSucceeded k c l) := by
  unfold State.exchangeSucceeded; split
  · exact h.modLink
  · split
    · exact h.identifyFailed
    · exact h.identifySucceeded
  · exact h.runGranted
  · exact h.runOver
  · exact h
  · exact h

theorem CardCalm.exchangeBusy {k : Fin 4} (h : CardCalm r s) : CardCalm r (s.exchangeBusy k) := by
  unfold State.exchangeBusy; dsimp only; split
  · exact h.modLink
  · exact h.exchangeFailed

theorem CardCalm.recordCancel {n : Nat} {i : Fin 8} (h : CardCalm r s) : CardCalm r (s.recordCancel n i) := by
  unfold State.recordCancel; split
  · exact h
  · split
    · exact h
    · dsimp only
      split
      · exact h.modProgress.damageFrame
      · exact h.modProgress.damageFrame
      · exact h.modProgress
      · split
        · exact h.modProgress.sendHalt
        · exact h.modProgress

theorem CardCalm.beginWork {k : Fin 4} {odd : Bool} (h : CardCalm r s) : CardCalm r (s.beginWork k odd) := by
  unfold State.beginWork; dsimp only; split
  · exact h.modLink.modLink
  · split
    · exact h.modLink.startRun
    · exact h.modLink
  · exact h.modLink

theorem CardCalm.grantLink {k : Fin 4} (h : CardCalm r s) : CardCalm r (s.grantLink k) := by
  unfold State.grantLink; split
  · exact h.beginWork
  · exact h.modLink
  · exact h

theorem CardCalm.grantAll (h : CardCalm r s) : CardCalm r s.grantAll :=
  CardCalm.ite (fun _ => h.settlePort.grantLink.grantLink.grantLink.grantLink) fun _ => h.settlePort

theorem CardCalm.abandonWork {i : Fin 8} (h : CardCalm r s) : CardCalm r (s.abandonWork i) := by
  unfold State.abandonWork; dsimp only
  exact CardCalm.ite (fun _ => CardCalm.ite (fun _ => h.modLink.beginWork) fun _ => h.modLink) fun _ => h

theorem CardCalm.removeCard {i : Fin 8} (h : CardCalm r s) : CardCalm r (s.removeCard i) := by
  unfold State.removeCard; dsimp only
  exact h.modSlot.abandonWork.damageFrames.modSlot

theorem CardCalm.detectSlot {i : Fin 8} (h : CardCalm r s) : CardCalm r (s.detectSlot i) := h.modSlot

theorem CardCalm.takeToken {k : Fin 4} {b : Byte} {l : List Byte} (h : CardCalm r s) : CardCalm r (s.takeToken k b l) := by
  unfold State.takeToken; dsimp only; split
  · exact h.exchangeFailed
  · exact h.exchangeBusy
  · exact h.exchangeSucceeded

theorem CardCalm.takeBlock {k : Fin 4} {odd : Bool} {n : Nat} {b : Byte} {l : List Byte} {c : Word16} (h : CardCalm r s) :
    CardCalm r (s.takeBlock k odd n b l c) := by
  unfold State.takeBlock; split
  · exact h.runFailed
  · split
    · exact h.sendHalt
    · exact h.goodBlock

theorem CardCalm.completeImport {i : Fin 8} {n : Nat} {f : Frame} (h : CardCalm r s) : CardCalm r (s.completeImport i n f) :=
  h.setFrame.leaveImportQueue.modSlot

theorem CardCalm.releaseByState {n : Nat} {f : Frame} (h : CardCalm r s) : CardCalm r (s.releaseByState n f) := by
  unfold State.releaseByState; split
  · exact h.damageFrame
  · exact h.damageFrame
  · exact h.recordCancel
  · exact h.retireTest
  · exact h.retireTest
  · exact h.retireTest
  · exact h.retireTest

end

end Sys2Proof.Machine
end

