-- ==== Sys2Proof/Laws/State.lean ====
section
/-! SUPPORT. What each elementary update of the state leaves in each component: one lemma for each component and update. -/

namespace Sys2Proof.Machine

variable (s : State)

/-! ### setFlag -/

@[simp] theorem State.setFlag_part (k : Nat) : (s.setFlag k).part = s.part := rfl
@[simp] theorem State.setFlag_link (k : Nat) : (s.setFlag k).link = { s.link with flags := insertAsc id k s.link.flags } := rfl
@[simp] theorem State.setFlag_params (k : Nat) : (s.setFlag k).params = s.params := rfl
@[simp] theorem State.setFlag_store (k : Nat) : (s.setFlag k).store = s.store := rfl
@[simp] theorem State.setFlag_cards (k : Nat) : (s.setFlag k).cards = s.cards := rfl
@[simp] theorem State.setFlag_book (k : Nat) : (s.setFlag k).book = s.book := rfl
@[simp] theorem State.setFlag_lines (k : Nat) : (s.setFlag k).lines = s.lines := rfl
@[simp] theorem State.setFlag_tenders (k : Nat) : (s.setFlag k).tenders = s.tenders := rfl
@[simp] theorem State.setFlag_engines (k : Nat) : (s.setFlag k).engines = s.engines := rfl
@[simp] theorem State.setFlag_ready (k : Nat) : (s.setFlag k).ready = s.ready := rfl
@[simp] theorem State.setFlag_thermal (k : Nat) : (s.setFlag k).thermal = s.thermal := rfl
@[simp] theorem State.setFlag_bus (k : Nat) : (s.setFlag k).bus = s.bus := rfl
@[simp] theorem State.setFlag_loader (k : Nat) : (s.setFlag k).loader = s.loader := rfl
@[simp] theorem State.setFlag_choices (k : Nat) : (s.setFlag k).choices = s.choices := rfl
@[simp] theorem State.setFlag_pending (k : Nat) : (s.setFlag k).pending = s.pending := rfl

/-! ### setFlagIf -/

@[simp] theorem State.setFlagIf_part (c : Bool) (k : Nat) : (s.setFlagIf c k).part = s.part := by
  unfold State.setFlagIf; split <;> rfl
@[simp] theorem State.setFlagIf_params (c : Bool) (k : Nat) : (s.setFlagIf c k).params = s.params := by
  unfold State.setFlagIf; split <;> rfl
@[simp] theorem State.setFlagIf_store (c : Bool) (k : Nat) : (s.setFlagIf c k).store = s.store := by
  unfold State.setFlagIf; split <;> rfl
@[simp] theorem State.setFlagIf_cards (c : Bool) (k : Nat) : (s.setFlagIf c k).cards = s.cards := by
  unfold State.setFlagIf; split <;> rfl
@[simp] theorem State.setFlagIf_book (c : Bool) (k : Nat) : (s.setFlagIf c k).book = s.book := by
  unfold State.setFlagIf; split <;> rfl
@[simp] theorem State.setFlagIf_lines (c : Bool) (k : Nat) : (s.setFlagIf c k).lines = s.lines := by
  unfold State.setFlagIf; split <;> rfl
@[simp] theorem State.setFlagIf_tenders (c : Bool) (k : Nat) : (s.setFlagIf c k).tenders = s.tenders := by
  unfold State.setFlagIf; split <;> rfl
@[simp] theorem State.setFlagIf_engines (c : Bool) (k : Nat) : (s.setFlagIf c k).engines = s.engines := by
  unfold State.setFlagIf; split <;> rfl
@[simp] theorem State.setFlagIf_ready (c : Bool) (k : Nat) : (s.setFlagIf c k).ready = s.ready := by
  unfold State.setFlagIf; split <;> rfl
@[simp] theorem State.setFlagIf_thermal (c : Bool) (k : Nat) : (s.setFlagIf c k).thermal = s.thermal := by
  unfold State.setFlagIf; split <;> rfl
@[simp] theorem State.setFlagIf_bus (c : Bool) (k : Nat) : (s.setFlagIf c k).bus = s.bus := by
  unfold State.setFlagIf; split <;> rfl
@[simp] theorem State.setFlagIf_loader (c : Bool) (k : Nat) : (s.setFlagIf c k).loader = s.loader := by
  unfold State.setFlagIf; split <;> rfl
@[simp] theorem State.setFlagIf_choices (c : Bool) (k : Nat) : (s.setFlagIf c k).choices = s.choices := by
  unfold State.setFlagIf; split <;> rfl
@[simp] theorem State.setFlagIf_pending (c : Bool) (k : Nat) : (s.setFlagIf c k).pending = s.pending := by
  unfold State.setFlagIf; split <;> rfl

/-! ### setAllFlags -/

@[simp] theorem State.setAllFlags_part : s.setAllFlags.part = s.part := rfl
@[simp] theorem State.setAllFlags_link : s.setAllFlags.link = { s.link with flags := allFlags } := rfl
@[simp] theorem State.setAllFlags_params : s.setAllFlags.params = s.params := rfl
@[simp] theorem State.setAllFlags_store : s.setAllFlags.store = s.store := rfl
@[simp] theorem State.setAllFlags_cards : s.setAllFlags.cards = s.cards := rfl
@[simp] theorem State.setAllFlags_book : s.setAllFlags.book = s.book := rfl
@[simp] theorem State.setAllFlags_lines : s.setAllFlags.lines = s.lines := rfl
@[simp] theorem State.setAllFlags_tenders : s.setAllFlags.tenders = s.tenders := rfl
@[simp] theorem State.setAllFlags_engines : s.setAllFlags.engines = s.engines := rfl
@[simp] theorem State.setAllFlags_ready : s.setAllFlags.ready = s.ready := rfl
@[simp] theorem State.setAllFlags_thermal : s.setAllFlags.thermal = s.thermal := rfl
@[simp] theorem State.setAllFlags_bus : s.setAllFlags.bus = s.bus := rfl
@[simp] theorem State.setAllFlags_loader : s.setAllFlags.loader = s.loader := rfl
@[simp] theorem State.setAllFlags_choices : s.setAllFlags.choices = s.choices := rfl
@[simp] theorem State.setAllFlags_pending : s.setAllFlags.pending = s.pending := rfl

/-! ### setCondition -/

@[simp] theorem State.setCondition_part (c : Condition) : (s.setCondition c).part = s.part := rfl
@[simp] theorem State.setCondition_link (c : Condition) : (s.setCondition c).link = { s.link with conditions := s.link.conditions ||| c.mask, flags := insertAsc id partFlag s.link.flags } := rfl
@[simp] theorem State.setCondition_params (c : Condition) : (s.setCondition c).params = s.params := rfl
@[simp] theorem State.setCondition_store (c : Condition) : (s.setCondition c).store = s.store := rfl
@[simp] theorem State.setCondition_cards (c : Condition) : (s.setCondition c).cards = s.cards := rfl
@[simp] theorem State.setCondition_book (c : Condition) : (s.setCondition c).book = s.book := rfl
@[simp] theorem State.setCondition_lines (c : Condition) : (s.setCondition c).lines = s.lines := rfl
@[simp] theorem State.setCondition_tenders (c : Condition) : (s.setCondition c).tenders = s.tenders := rfl
@[simp] theorem State.setCondition_engines (c : Condition) : (s.setCondition c).engines = s.engines := rfl
@[simp] theorem State.setCondition_ready (c : Condition) : (s.setCondition c).ready = s.ready := rfl
@[simp] theorem State.setCondition_thermal (c : Condition) : (s.setCondition c).thermal = s.thermal := rfl
@[simp] theorem State.setCondition_bus (c : Condition) : (s.setCondition c).bus = s.bus := rfl
@[simp] theorem State.setCondition_loader (c : Condition) : (s.setCondition c).loader = s.loader := rfl
@[simp] theorem State.setCondition_choices (c : Condition) : (s.setCondition c).choices = s.choices := rfl
@[simp] theorem State.setCondition_pending (c : Condition) : (s.setCondition c).pending = s.pending := rfl

/-! ### respond -/

@[simp] theorem State.respond_part (r : Status) (p : List Byte) : (s.respond r p).part = s.part := rfl
@[simp] theorem State.respond_link (r : Status) (p : List Byte) : (s.respond r p).link = { s.link with state := .answered, handed := none, working := none, response := some ⟨r, p⟩, shifted := 0 } := rfl
@[simp] theorem State.respond_params (r : Status) (p : List Byte) : (s.respond r p).params = s.params := rfl
@[simp] theorem State.respond_store (r : Status) (p : List Byte) : (s.respond r p).store = s.store := rfl
@[simp] theorem State.respond_cards (r : Status) (p : List Byte) : (s.respond r p).cards = s.cards := rfl
@[simp] theorem State.respond_book (r : Status) (p : List Byte) : (s.respond r p).book = s.book := rfl
@[simp] theorem State.respond_lines (r : Status) (p : List Byte) : (s.respond r p).lines = s.lines := rfl
@[simp] theorem State.respond_tenders (r : Status) (p : List Byte) : (s.respond r p).tenders = s.tenders := rfl
@[simp] theorem State.respond_engines (r : Status) (p : List Byte) : (s.respond r p).engines = s.engines := rfl
@[simp] theorem State.respond_ready (r : Status) (p : List Byte) : (s.respond r p).ready = s.ready := rfl
@[simp] theorem State.respond_thermal (r : Status) (p : List Byte) : (s.respond r p).thermal = s.thermal := rfl
@[simp] theorem State.respond_bus (r : Status) (p : List Byte) : (s.respond r p).bus = s.bus := rfl
@[simp] theorem State.respond_loader (r : Status) (p : List Byte) : (s.respond r p).loader = s.loader := rfl
@[simp] theorem State.respond_choices (r : Status) (p : List Byte) : (s.respond r p).choices = s.choices := rfl
@[simp] theorem State.respond_pending (r : Status) (p : List Byte) : (s.respond r p).pending = s.pending := rfl

/-! ### refuse -/

@[simp] theorem State.refuse_part (r : Status) : (s.refuse r).part = s.part := rfl
@[simp] theorem State.refuse_link (r : Status) : (s.refuse r).link = { s.link with state := .answered, handed := none, working := none, response := some ⟨r, []⟩, shifted := 0 } := rfl
@[simp] theorem State.refuse_params (r : Status) : (s.refuse r).params = s.params := rfl
@[simp] theorem State.refuse_store (r : Status) : (s.refuse r).store = s.store := rfl
@[simp] theorem State.refuse_cards (r : Status) : (s.refuse r).cards = s.cards := rfl
@[simp] theorem State.refuse_book (r : Status) : (s.refuse r).book = s.book := rfl
@[simp] theorem State.refuse_lines (r : Status) : (s.refuse r).lines = s.lines := rfl
@[simp] theorem State.refuse_tenders (r : Status) : (s.refuse r).tenders = s.tenders := rfl
@[simp] theorem State.refuse_engines (r : Status) : (s.refuse r).engines = s.engines := rfl
@[simp] theorem State.refuse_ready (r : Status) : (s.refuse r).ready = s.ready := rfl
@[simp] theorem State.refuse_thermal (r : Status) : (s.refuse r).thermal = s.thermal := rfl
@[simp] theorem State.refuse_bus (r : Status) : (s.refuse r).bus = s.bus := rfl
@[simp] theorem State.refuse_loader (r : Status) : (s.refuse r).loader = s.loader := rfl
@[simp] theorem State.refuse_choices (r : Status) : (s.refuse r).choices = s.choices := rfl
@[simp] theorem State.refuse_pending (r : Status) : (s.refuse r).pending = s.pending := rfl

/-! ### restartEffect -/

@[simp] theorem State.restartEffect_part : s.restartEffect.part = s.part := by
  unfold State.restartEffect; split <;> rfl
@[simp] theorem State.restartEffect_params : s.restartEffect.params = s.params := by
  unfold State.restartEffect; split <;> rfl
@[simp] theorem State.restartEffect_store : s.restartEffect.store = s.store := by
  unfold State.restartEffect; split <;> rfl
@[simp] theorem State.restartEffect_cards : s.restartEffect.cards = s.cards := by
  unfold State.restartEffect; split <;> rfl
@[simp] theorem State.restartEffect_book : s.restartEffect.book = s.book := by
  unfold State.restartEffect; split <;> rfl
@[simp] theorem State.restartEffect_lines : s.restartEffect.lines = s.lines := by
  unfold State.restartEffect; split <;> rfl
@[simp] theorem State.restartEffect_tenders : s.restartEffect.tenders = s.tenders := by
  unfold State.restartEffect; split <;> rfl
@[simp] theorem State.restartEffect_engines : s.restartEffect.engines = s.engines := by
  unfold State.restartEffect; split <;> rfl
@[simp] theorem State.restartEffect_ready : s.restartEffect.ready = s.ready := by
  unfold State.restartEffect; split <;> rfl
@[simp] theorem State.restartEffect_thermal : s.restartEffect.thermal = s.thermal := by
  unfold State.restartEffect; split <;> rfl
@[simp] theorem State.restartEffect_bus : s.restartEffect.bus = s.bus := by
  unfold State.restartEffect; split <;> rfl
@[simp] theorem State.restartEffect_loader : s.restartEffect.loader = s.loader := by
  unfold State.restartEffect; split <;> rfl
@[simp] theorem State.restartEffect_choices : s.restartEffect.choices = s.choices := by
  unfold State.restartEffect; split <;> rfl
@[simp] theorem State.restartEffect_pending : s.restartEffect.pending = s.pending := by
  unfold State.restartEffect; split <;> rfl

/-! ### beginFrame -/

@[simp] theorem State.beginFrame_part : s.beginFrame.part = s.part := by
  unfold State.beginFrame State.restartEffect; split <;> rfl
@[simp] theorem State.beginFrame_params : s.beginFrame.params = s.params := by
  unfold State.beginFrame State.restartEffect; split <;> rfl
@[simp] theorem State.beginFrame_store : s.beginFrame.store = s.store := by
  unfold State.beginFrame State.restartEffect; split <;> rfl
@[simp] theorem State.beginFrame_cards : s.beginFrame.cards = s.cards := by
  unfold State.beginFrame State.restartEffect; split <;> rfl
@[simp] theorem State.beginFrame_book : s.beginFrame.book = s.book := by
  unfold State.beginFrame State.restartEffect; split <;> rfl
@[simp] theorem State.beginFrame_lines : s.beginFrame.lines = s.lines := by
  unfold State.beginFrame State.restartEffect; split <;> rfl
@[simp] theorem State.beginFrame_tenders : s.beginFrame.tenders = s.tenders := by
  unfold State.beginFrame State.restartEffect; split <;> rfl
@[simp] theorem State.beginFrame_engines : s.beginFrame.engines = s.engines := by
  unfold State.beginFrame State.restartEffect; split <;> rfl
@[simp] theorem State.beginFrame_ready : s.beginFrame.ready = s.ready := by
  unfold State.beginFrame State.restartEffect; split <;> rfl
@[simp] theorem State.beginFrame_thermal : s.beginFrame.thermal = s.thermal := by
  unfold State.beginFrame State.restartEffect; split <;> rfl
@[simp] theorem State.beginFrame_bus : s.beginFrame.bus = s.bus := by
  unfold State.beginFrame State.restartEffect; split <;> rfl
@[simp] theorem State.beginFrame_loader : s.beginFrame.loader = s.loader := by
  unfold State.beginFrame State.restartEffect; split <;> rfl
@[simp] theorem State.beginFrame_choices : s.beginFrame.choices = s.choices := by
  unfold State.beginFrame State.restartEffect; split <;> rfl
@[simp] theorem State.beginFrame_pending : s.beginFrame.pending = s.pending := by
  unfold State.beginFrame State.restartEffect; split <;> rfl

/-! ### handOver -/

@[simp] theorem State.handOver_part (i : Instr) : (s.handOver i).part = s.part := rfl
@[simp] theorem State.handOver_link (i : Instr) : (s.handOver i).link = { s.link with state := .working, handed := some i, working := none } := rfl
@[simp] theorem State.handOver_params (i : Instr) : (s.handOver i).params = s.params := rfl
@[simp] theorem State.handOver_store (i : Instr) : (s.handOver i).store = s.store := rfl
@[simp] theorem State.handOver_cards (i : Instr) : (s.handOver i).cards = s.cards := rfl
@[simp] theorem State.handOver_book (i : Instr) : (s.handOver i).book = s.book := rfl
@[simp] theorem State.handOver_lines (i : Instr) : (s.handOver i).lines = s.lines := rfl
@[simp] theorem State.handOver_tenders (i : Instr) : (s.handOver i).tenders = s.tenders := rfl
@[simp] theorem State.handOver_engines (i : Instr) : (s.handOver i).engines = s.engines := rfl
@[simp] theorem State.handOver_ready (i : Instr) : (s.handOver i).ready = s.ready := rfl
@[simp] theorem State.handOver_thermal (i : Instr) : (s.handOver i).thermal = s.thermal := rfl
@[simp] theorem State.handOver_bus (i : Instr) : (s.handOver i).bus = s.bus := rfl
@[simp] theorem State.handOver_loader (i : Instr) : (s.handOver i).loader = s.loader := rfl
@[simp] theorem State.handOver_choices (i : Instr) : (s.handOver i).choices = s.choices := rfl
@[simp] theorem State.handOver_pending (i : Instr) : (s.handOver i).pending = s.pending := rfl

/-! ### takeHanded -/

@[simp] theorem State.takeHanded_part (i : Instr) : (s.takeHanded i).part = s.part := rfl
@[simp] theorem State.takeHanded_link (i : Instr) : (s.takeHanded i).link = { s.link with state := .working, handed := none, working := some i } := rfl
@[simp] theorem State.takeHanded_params (i : Instr) : (s.takeHanded i).params = s.params := rfl
@[simp] theorem State.takeHanded_store (i : Instr) : (s.takeHanded i).store = s.store := rfl
@[simp] theorem State.takeHanded_cards (i : Instr) : (s.takeHanded i).cards = s.cards := rfl
@[simp] theorem State.takeHanded_book (i : Instr) : (s.takeHanded i).book = s.book := rfl
@[simp] theorem State.takeHanded_lines (i : Instr) : (s.takeHanded i).lines = s.lines := rfl
@[simp] theorem State.takeHanded_tenders (i : Instr) : (s.takeHanded i).tenders = s.tenders := rfl
@[simp] theorem State.takeHanded_engines (i : Instr) : (s.takeHanded i).engines = s.engines := rfl
@[simp] theorem State.takeHanded_ready (i : Instr) : (s.takeHanded i).ready = s.ready := rfl
@[simp] theorem State.takeHanded_thermal (i : Instr) : (s.takeHanded i).thermal = s.thermal := rfl
@[simp] theorem State.takeHanded_bus (i : Instr) : (s.takeHanded i).bus = s.bus := rfl
@[simp] theorem State.takeHanded_loader (i : Instr) : (s.takeHanded i).loader = s.loader := rfl
@[simp] theorem State.takeHanded_choices (i : Instr) : (s.takeHanded i).choices = s.choices := rfl
@[simp] theorem State.takeHanded_pending (i : Instr) : (s.takeHanded i).pending = s.pending := rfl

/-! ### shiftFiller -/

@[simp] theorem State.shiftFiller_part : (s.shiftFiller).part = s.part := rfl
@[simp] theorem State.shiftFiller_link : (s.shiftFiller).link = { s.link with sdo := 0xFF } := rfl
@[simp] theorem State.shiftFiller_params : (s.shiftFiller).params = s.params := rfl
@[simp] theorem State.shiftFiller_store : (s.shiftFiller).store = s.store := rfl
@[simp] theorem State.shiftFiller_cards : (s.shiftFiller).cards = s.cards := rfl
@[simp] theorem State.shiftFiller_book : (s.shiftFiller).book = s.book := rfl
@[simp] theorem State.shiftFiller_lines : (s.shiftFiller).lines = s.lines := rfl
@[simp] theorem State.shiftFiller_tenders : (s.shiftFiller).tenders = s.tenders := rfl
@[simp] theorem State.shiftFiller_engines : (s.shiftFiller).engines = s.engines := rfl
@[simp] theorem State.shiftFiller_ready : (s.shiftFiller).ready = s.ready := rfl
@[simp] theorem State.shiftFiller_thermal : (s.shiftFiller).thermal = s.thermal := rfl
@[simp] theorem State.shiftFiller_bus : (s.shiftFiller).bus = s.bus := rfl
@[simp] theorem State.shiftFiller_loader : (s.shiftFiller).loader = s.loader := rfl
@[simp] theorem State.shiftFiller_choices : (s.shiftFiller).choices = s.choices := rfl
@[simp] theorem State.shiftFiller_pending : (s.shiftFiller).pending = s.pending := rfl

/-! ### shiftOut -/

@[simp] theorem State.shiftOut_part : s.shiftOut.part = s.part := by
  unfold State.shiftOut; dsimp only; split <;> rfl
@[simp] theorem State.shiftOut_params : s.shiftOut.params = s.params := by
  unfold State.shiftOut; dsimp only; split <;> rfl
@[simp] theorem State.shiftOut_store : s.shiftOut.store = s.store := by
  unfold State.shiftOut; dsimp only; split <;> rfl
@[simp] theorem State.shiftOut_cards : s.shiftOut.cards = s.cards := by
  unfold State.shiftOut; dsimp only; split <;> rfl
@[simp] theorem State.shiftOut_book : s.shiftOut.book = s.book := by
  unfold State.shiftOut; dsimp only; split <;> rfl
@[simp] theorem State.shiftOut_lines : s.shiftOut.lines = s.lines := by
  unfold State.shiftOut; dsimp only; split <;> rfl
@[simp] theorem State.shiftOut_tenders : s.shiftOut.tenders = s.tenders := by
  unfold State.shiftOut; dsimp only; split <;> rfl
@[simp] theorem State.shiftOut_engines : s.shiftOut.engines = s.engines := by
  unfold State.shiftOut; dsimp only; split <;> rfl
@[simp] theorem State.shiftOut_ready : s.shiftOut.ready = s.ready := by
  unfold State.shiftOut; dsimp only; split <;> rfl
@[simp] theorem State.shiftOut_thermal : s.shiftOut.thermal = s.thermal := by
  unfold State.shiftOut; dsimp only; split <;> rfl
@[simp] theorem State.shiftOut_bus : s.shiftOut.bus = s.bus := by
  unfold State.shiftOut; dsimp only; split <;> rfl
@[simp] theorem State.shiftOut_loader : s.shiftOut.loader = s.loader := by
  unfold State.shiftOut; dsimp only; split <;> rfl
@[simp] theorem State.shiftOut_choices : s.shiftOut.choices = s.choices := by
  unfold State.shiftOut; dsimp only; split <;> rfl
@[simp] theorem State.shiftOut_pending : s.shiftOut.pending = s.pending := by
  unfold State.shiftOut; dsimp only; split <;> rfl

/-! ### setAttr -/

@[simp] theorem State.setAttr_part (p : Page) (a : PageAttr) : (s.setAttr p a).part = s.part := rfl
@[simp] theorem State.setAttr_link (p : Page) (a : PageAttr) : (s.setAttr p a).link = s.link := rfl
@[simp] theorem State.setAttr_params (p : Page) (a : PageAttr) : (s.setAttr p a).params = s.params := rfl
@[simp] theorem State.setAttr_cards (p : Page) (a : PageAttr) : (s.setAttr p a).cards = s.cards := rfl
@[simp] theorem State.setAttr_book (p : Page) (a : PageAttr) : (s.setAttr p a).book = s.book := rfl
@[simp] theorem State.setAttr_lines (p : Page) (a : PageAttr) : (s.setAttr p a).lines = s.lines := rfl
@[simp] theorem State.setAttr_tenders (p : Page) (a : PageAttr) : (s.setAttr p a).tenders = s.tenders := rfl
@[simp] theorem State.setAttr_engines (p : Page) (a : PageAttr) : (s.setAttr p a).engines = s.engines := rfl
@[simp] theorem State.setAttr_ready (p : Page) (a : PageAttr) : (s.setAttr p a).ready = s.ready := rfl
@[simp] theorem State.setAttr_thermal (p : Page) (a : PageAttr) : (s.setAttr p a).thermal = s.thermal := rfl
@[simp] theorem State.setAttr_bus (p : Page) (a : PageAttr) : (s.setAttr p a).bus = s.bus := rfl
@[simp] theorem State.setAttr_loader (p : Page) (a : PageAttr) : (s.setAttr p a).loader = s.loader := rfl
@[simp] theorem State.setAttr_choices (p : Page) (a : PageAttr) : (s.setAttr p a).choices = s.choices := rfl
@[simp] theorem State.setAttr_pending (p : Page) (a : PageAttr) : (s.setAttr p a).pending = s.pending := rfl

/-! ### askPort -/

@[simp] theorem State.askPort_part (a : Access) : (s.askPort a).part = s.part := rfl
@[simp] theorem State.askPort_link (a : Access) : (s.askPort a).link = s.link := rfl
@[simp] theorem State.askPort_params (a : Access) : (s.askPort a).params = s.params := rfl
@[simp] theorem State.askPort_store (a : Access) : (s.askPort a).store = { s.store with port := { s.store.port with waiting := s.store.port.waiting ++ [a] } } := rfl
@[simp] theorem State.askPort_cards (a : Access) : (s.askPort a).cards = s.cards := rfl
@[simp] theorem State.askPort_book (a : Access) : (s.askPort a).book = s.book := rfl
@[simp] theorem State.askPort_lines (a : Access) : (s.askPort a).lines = s.lines := rfl
@[simp] theorem State.askPort_tenders (a : Access) : (s.askPort a).tenders = s.tenders := rfl
@[simp] theorem State.askPort_engines (a : Access) : (s.askPort a).engines = s.engines := rfl
@[simp] theorem State.askPort_ready (a : Access) : (s.askPort a).ready = s.ready := rfl
@[simp] theorem State.askPort_thermal (a : Access) : (s.askPort a).thermal = s.thermal := rfl
@[simp] theorem State.askPort_bus (a : Access) : (s.askPort a).bus = s.bus := rfl
@[simp] theorem State.askPort_loader (a : Access) : (s.askPort a).loader = s.loader := rfl
@[simp] theorem State.askPort_choices (a : Access) : (s.askPort a).choices = s.choices := rfl
@[simp] theorem State.askPort_pending (a : Access) : (s.askPort a).pending = s.pending := rfl

/-! ### withdrawWaiting -/

@[simp] theorem State.withdrawWaiting_part (f : Access → Bool) : (s.withdrawWaiting f).part = s.part := rfl
@[simp] theorem State.withdrawWaiting_link (f : Access → Bool) : (s.withdrawWaiting f).link = s.link := rfl
@[simp] theorem State.withdrawWaiting_params (f : Access → Bool) : (s.withdrawWaiting f).params = s.params := rfl
@[simp] theorem State.withdrawWaiting_cards (f : Access → Bool) : (s.withdrawWaiting f).cards = s.cards := rfl
@[simp] theorem State.withdrawWaiting_book (f : Access → Bool) : (s.withdrawWaiting f).book = s.book := rfl
@[simp] theorem State.withdrawWaiting_lines (f : Access → Bool) : (s.withdrawWaiting f).lines = s.lines := rfl
@[simp] theorem State.withdrawWaiting_tenders (f : Access → Bool) : (s.withdrawWaiting f).tenders = s.tenders := rfl
@[simp] theorem State.withdrawWaiting_engines (f : Access → Bool) : (s.withdrawWaiting f).engines = s.engines := rfl
@[simp] theorem State.withdrawWaiting_ready (f : Access → Bool) : (s.withdrawWaiting f).ready = s.ready := rfl
@[simp] theorem State.withdrawWaiting_thermal (f : Access → Bool) : (s.withdrawWaiting f).thermal = s.thermal := rfl
@[simp] theorem State.withdrawWaiting_bus (f : Access → Bool) : (s.withdrawWaiting f).bus = s.bus := rfl
@[simp] theorem State.withdrawWaiting_loader (f : Access → Bool) : (s.withdrawWaiting f).loader = s.loader := rfl
@[simp] theorem State.withdrawWaiting_choices (f : Access → Bool) : (s.withdrawWaiting f).choices = s.choices := rfl
@[simp] theorem State.withdrawWaiting_pending (f : Access → Bool) : (s.withdrawWaiting f).pending = s.pending := rfl

/-! ### voidBlocks -/

@[simp] theorem State.voidBlocks_part (n : Nat) : (s.voidBlocks n).part = s.part := rfl
@[simp] theorem State.voidBlocks_link (n : Nat) : (s.voidBlocks n).link = s.link := rfl
@[simp] theorem State.voidBlocks_params (n : Nat) : (s.voidBlocks n).params = s.params := rfl
@[simp] theorem State.voidBlocks_cards (n : Nat) : (s.voidBlocks n).cards = s.cards := rfl
@[simp] theorem State.voidBlocks_book (n : Nat) : (s.voidBlocks n).book = s.book := rfl
@[simp] theorem State.voidBlocks_lines (n : Nat) : (s.voidBlocks n).lines = s.lines := rfl
@[simp] theorem State.voidBlocks_tenders (n : Nat) : (s.voidBlocks n).tenders = s.tenders := rfl
@[simp] theorem State.voidBlocks_engines (n : Nat) : (s.voidBlocks n).engines = s.engines := rfl
@[simp] theorem State.voidBlocks_ready (n : Nat) : (s.voidBlocks n).ready = s.ready := rfl
@[simp] theorem State.voidBlocks_thermal (n : Nat) : (s.voidBlocks n).thermal = s.thermal := rfl
@[simp] theorem State.voidBlocks_bus (n : Nat) : (s.voidBlocks n).bus = s.bus := rfl
@[simp] theorem State.voidBlocks_loader (n : Nat) : (s.voidBlocks n).loader = s.loader := rfl
@[simp] theorem State.voidBlocks_choices (n : Nat) : (s.voidBlocks n).choices = s.choices := rfl
@[simp] theorem State.voidBlocks_pending (n : Nat) : (s.voidBlocks n).pending = s.pending := rfl

/-! ### gainWork -/

@[simp] theorem State.gainWork_part (i : Fin 8) : (s.gainWork i).part = s.part := by
  unfold State.gainWork; dsimp only; split <;> rfl
@[simp] theorem State.gainWork_link (i : Fin 8) : (s.gainWork i).link = s.link := by
  unfold State.gainWork; dsimp only; split <;> rfl
@[simp] theorem State.gainWork_params (i : Fin 8) : (s.gainWork i).params = s.params := by
  unfold State.gainWork; dsimp only; split <;> rfl
@[simp] theorem State.gainWork_store (i : Fin 8) : (s.gainWork i).store = s.store := by
  unfold State.gainWork; dsimp only; split <;> rfl
@[simp] theorem State.gainWork_book (i : Fin 8) : (s.gainWork i).book = s.book := by
  unfold State.gainWork; dsimp only; split <;> rfl
@[simp] theorem State.gainWork_lines (i : Fin 8) : (s.gainWork i).lines = s.lines := by
  unfold State.gainWork; dsimp only; split <;> rfl
@[simp] theorem State.gainWork_tenders (i : Fin 8) : (s.gainWork i).tenders = s.tenders := by
  unfold State.gainWork; dsimp only; split <;> rfl
@[simp] theorem State.gainWork_engines (i : Fin 8) : (s.gainWork i).engines = s.engines := by
  unfold State.gainWork; dsimp only; split <;> rfl
@[simp] theorem State.gainWork_ready (i : Fin 8) : (s.gainWork i).ready = s.ready := by
  unfold State.gainWork; dsimp only; split <;> rfl
@[simp] theorem State.gainWork_thermal (i : Fin 8) : (s.gainWork i).thermal = s.thermal := by
  unfold State.gainWork; dsimp only; split <;> rfl
@[simp] theorem State.gainWork_bus (i : Fin 8) : (s.gainWork i).bus = s.bus := by
  unfold State.gainWork; dsimp only; split <;> rfl
@[simp] theorem State.gainWork_loader (i : Fin 8) : (s.gainWork i).loader = s.loader := by
  unfold State.gainWork; dsimp only; split <;> rfl
@[simp] theorem State.gainWork_choices (i : Fin 8) : (s.gainWork i).choices = s.choices := by
  unfold State.gainWork; dsimp only; split <;> rfl
@[simp] theorem State.gainWork_pending (i : Fin 8) : (s.gainWork i).pending = s.pending := by
  unfold State.gainWork; dsimp only; split <;> rfl

/-! ### frameAllocated -/

@[simp] theorem State.frameAllocated_part (f : Frame) : (s.frameAllocated f).part = s.part := by
  unfold State.frameAllocated; split <;> simp
@[simp] theorem State.frameAllocated_link (f : Frame) : (s.frameAllocated f).link = s.link := by
  unfold State.frameAllocated; split <;> simp
@[simp] theorem State.frameAllocated_params (f : Frame) : (s.frameAllocated f).params = s.params := by
  unfold State.frameAllocated; split <;> simp
@[simp] theorem State.frameAllocated_store (f : Frame) : (s.frameAllocated f).store = s.store := by
  unfold State.frameAllocated; split <;> simp
@[simp] theorem State.frameAllocated_book (f : Frame) : (s.frameAllocated f).book = s.book := by
  unfold State.frameAllocated; split <;> simp
@[simp] theorem State.frameAllocated_lines (f : Frame) : (s.frameAllocated f).lines = s.lines := by
  unfold State.frameAllocated; split <;> simp
@[simp] theorem State.frameAllocated_tenders (f : Frame) : (s.frameAllocated f).tenders = s.tenders := by
  unfold State.frameAllocated; split <;> simp
@[simp] theorem State.frameAllocated_engines (f : Frame) : (s.frameAllocated f).engines = s.engines := by
  unfold State.frameAllocated; split <;> simp
@[simp] theorem State.frameAllocated_ready (f : Frame) : (s.frameAllocated f).ready = s.ready := by
  unfold State.frameAllocated; split <;> simp
@[simp] theorem State.frameAllocated_thermal (f : Frame) : (s.frameAllocated f).thermal = s.thermal := by
  unfold State.frameAllocated; split <;> simp
@[simp] theorem State.frameAllocated_bus (f : Frame) : (s.frameAllocated f).bus = s.bus := by
  unfold State.frameAllocated; split <;> simp
@[simp] theorem State.frameAllocated_loader (f : Frame) : (s.frameAllocated f).loader = s.loader := by
  unfold State.frameAllocated; split <;> simp
@[simp] theorem State.frameAllocated_choices (f : Frame) : (s.frameAllocated f).choices = s.choices := by
  unfold State.frameAllocated; split <;> simp
@[simp] theorem State.frameAllocated_pending (f : Frame) : (s.frameAllocated f).pending = s.pending := by
  unfold State.frameAllocated; split <;> simp

/-! ### noteScrub -/

@[simp] theorem State.noteScrub_part : s.noteScrub.part = s.part := rfl
@[simp] theorem State.noteScrub_link : s.noteScrub.link = s.link := rfl
@[simp] theorem State.noteScrub_params : s.noteScrub.params = s.params := rfl
@[simp] theorem State.noteScrub_store : s.noteScrub.store = { s.store with scrubStep := s.store.scrubStep.map (ScrubStep.noteEligible fun p => s.scrubbable p) } := rfl
@[simp] theorem State.noteScrub_cards : s.noteScrub.cards = s.cards := rfl
@[simp] theorem State.noteScrub_book : s.noteScrub.book = s.book := rfl
@[simp] theorem State.noteScrub_lines : s.noteScrub.lines = s.lines := rfl
@[simp] theorem State.noteScrub_tenders : s.noteScrub.tenders = s.tenders := rfl
@[simp] theorem State.noteScrub_engines : s.noteScrub.engines = s.engines := rfl
@[simp] theorem State.noteScrub_ready : s.noteScrub.ready = s.ready := rfl
@[simp] theorem State.noteScrub_thermal : s.noteScrub.thermal = s.thermal := rfl
@[simp] theorem State.noteScrub_bus : s.noteScrub.bus = s.bus := rfl
@[simp] theorem State.noteScrub_loader : s.noteScrub.loader = s.loader := rfl
@[simp] theorem State.noteScrub_choices : s.noteScrub.choices = s.choices := rfl
@[simp] theorem State.noteScrub_pending : s.noteScrub.pending = s.pending := rfl

/-! ### writeFrame -/

@[simp] theorem State.writeFrame_part (f : Frame) (x : Nat) (l : List Byte) : (s.writeFrame f x l).part = s.part := rfl
@[simp] theorem State.writeFrame_link (f : Frame) (x : Nat) (l : List Byte) : (s.writeFrame f x l).link = s.link := rfl
@[simp] theorem State.writeFrame_params (f : Frame) (x : Nat) (l : List Byte) : (s.writeFrame f x l).params = s.params := rfl
@[simp] theorem State.writeFrame_store (f : Frame) (x : Nat) (l : List Byte) : (s.writeFrame f x l).store = { s.store with mem := writeFrameBytes s.store.mem f.extent x l } := rfl
@[simp] theorem State.writeFrame_cards (f : Frame) (x : Nat) (l : List Byte) : (s.writeFrame f x l).cards = s.cards := rfl
@[simp] theorem State.writeFrame_book (f : Frame) (x : Nat) (l : List Byte) : (s.writeFrame f x l).book = s.book := rfl
@[simp] theorem State.writeFrame_lines (f : Frame) (x : Nat) (l : List Byte) : (s.writeFrame f x l).lines = s.lines := rfl
@[simp] theorem State.writeFrame_tenders (f : Frame) (x : Nat) (l : List Byte) : (s.writeFrame f x l).tenders = s.tenders := rfl
@[simp] theorem State.writeFrame_engines (f : Frame) (x : Nat) (l : List Byte) : (s.writeFrame f x l).engines = s.engines := rfl
@[simp] theorem State.writeFrame_ready (f : Frame) (x : Nat) (l : List Byte) : (s.writeFrame f x l).ready = s.ready := rfl
@[simp] theorem State.writeFrame_thermal (f : Frame) (x : Nat) (l : List Byte) : (s.writeFrame f x l).thermal = s.thermal := rfl
@[simp] theorem State.writeFrame_bus (f : Frame) (x : Nat) (l : List Byte) : (s.writeFrame f x l).bus = s.bus := rfl
@[simp] theorem State.writeFrame_loader (f : Frame) (x : Nat) (l : List Byte) : (s.writeFrame f x l).loader = s.loader := rfl
@[simp] theorem State.writeFrame_choices (f : Frame) (x : Nat) (l : List Byte) : (s.writeFrame f x l).choices = s.choices := rfl
@[simp] theorem State.writeFrame_pending (f : Frame) (x : Nat) (l : List Byte) : (s.writeFrame f x l).pending = s.pending := rfl

/-! ### copyBytes -/

@[simp] theorem State.copyBytes_part (p t : Page) (x n : Nat) : (s.copyBytes p t x n).part = s.part := rfl
@[simp] theorem State.copyBytes_link (p t : Page) (x n : Nat) : (s.copyBytes p t x n).link = s.link := rfl
@[simp] theorem State.copyBytes_params (p t : Page) (x n : Nat) : (s.copyBytes p t x n).params = s.params := rfl
@[simp] theorem State.copyBytes_store (p t : Page) (x n : Nat) : (s.copyBytes p t x n).store = { s.store with
    mem := writeBytes s.store.mem (pageAddress t x) (readBytes s.store.mem (pageAddress p x) n) } := rfl
@[simp] theorem State.copyBytes_cards (p t : Page) (x n : Nat) : (s.copyBytes p t x n).cards = s.cards := rfl
@[simp] theorem State.copyBytes_book (p t : Page) (x n : Nat) : (s.copyBytes p t x n).book = s.book := rfl
@[simp] theorem State.copyBytes_lines (p t : Page) (x n : Nat) : (s.copyBytes p t x n).lines = s.lines := rfl
@[simp] theorem State.copyBytes_tenders (p t : Page) (x n : Nat) : (s.copyBytes p t x n).tenders = s.tenders := rfl
@[simp] theorem State.copyBytes_engines (p t : Page) (x n : Nat) : (s.copyBytes p t x n).engines = s.engines := rfl
@[simp] theorem State.copyBytes_ready (p t : Page) (x n : Nat) : (s.copyBytes p t x n).ready = s.ready := rfl
@[simp] theorem State.copyBytes_thermal (p t : Page) (x n : Nat) : (s.copyBytes p t x n).thermal = s.thermal := rfl
@[simp] theorem State.copyBytes_bus (p t : Page) (x n : Nat) : (s.copyBytes p t x n).bus = s.bus := rfl
@[simp] theorem State.copyBytes_loader (p t : Page) (x n : Nat) : (s.copyBytes p t x n).loader = s.loader := rfl
@[simp] theorem State.copyBytes_choices (p t : Page) (x n : Nat) : (s.copyBytes p t x n).choices = s.choices := rfl
@[simp] theorem State.copyBytes_pending (p t : Page) (x n : Nat) : (s.copyBytes p t x n).pending = s.pending := rfl

/-! ### countScrub -/

@[simp] theorem State.countScrub_part (e : ReadErrors) : (s.countScrub e).part = s.part := rfl
@[simp] theorem State.countScrub_link (e : ReadErrors) : (s.countScrub e).link = s.link := rfl
@[simp] theorem State.countScrub_params (e : ReadErrors) : (s.countScrub e).params = s.params := rfl
@[simp] theorem State.countScrub_store (e : ReadErrors) : (s.countScrub e).store = { s.store with scrubStep := s.store.scrubStep.map (ScrubStep.count s.stopSet e) } := rfl
@[simp] theorem State.countScrub_cards (e : ReadErrors) : (s.countScrub e).cards = s.cards := rfl
@[simp] theorem State.countScrub_book (e : ReadErrors) : (s.countScrub e).book = s.book := rfl
@[simp] theorem State.countScrub_lines (e : ReadErrors) : (s.countScrub e).lines = s.lines := rfl
@[simp] theorem State.countScrub_tenders (e : ReadErrors) : (s.countScrub e).tenders = s.tenders := rfl
@[simp] theorem State.countScrub_engines (e : ReadErrors) : (s.countScrub e).engines = s.engines := rfl
@[simp] theorem State.countScrub_ready (e : ReadErrors) : (s.countScrub e).ready = s.ready := rfl
@[simp] theorem State.countScrub_thermal (e : ReadErrors) : (s.countScrub e).thermal = s.thermal := rfl
@[simp] theorem State.countScrub_bus (e : ReadErrors) : (s.countScrub e).bus = s.bus := rfl
@[simp] theorem State.countScrub_loader (e : ReadErrors) : (s.countScrub e).loader = s.loader := rfl
@[simp] theorem State.countScrub_choices (e : ReadErrors) : (s.countScrub e).choices = s.choices := rfl
@[simp] theorem State.countScrub_pending (e : ReadErrors) : (s.countScrub e).pending = s.pending := rfl

/-! ### endAccess -/

@[simp] theorem State.endAccess_part : s.endAccess.part = s.part := rfl
@[simp] theorem State.endAccess_link : s.endAccess.link = s.link := rfl
@[simp] theorem State.endAccess_params : s.endAccess.params = s.params := rfl
@[simp] theorem State.endAccess_store : s.endAccess.store = { s.store with port := { s.store.port with busy := none } } := rfl
@[simp] theorem State.endAccess_cards : s.endAccess.cards = s.cards := rfl
@[simp] theorem State.endAccess_book : s.endAccess.book = s.book := rfl
@[simp] theorem State.endAccess_lines : s.endAccess.lines = s.lines := rfl
@[simp] theorem State.endAccess_tenders : s.endAccess.tenders = s.tenders := rfl
@[simp] theorem State.endAccess_engines : s.endAccess.engines = s.engines := rfl
@[simp] theorem State.endAccess_ready : s.endAccess.ready = s.ready := rfl
@[simp] theorem State.endAccess_thermal : s.endAccess.thermal = s.thermal := rfl
@[simp] theorem State.endAccess_bus : s.endAccess.bus = s.bus := rfl
@[simp] theorem State.endAccess_loader : s.endAccess.loader = s.loader := rfl
@[simp] theorem State.endAccess_choices : s.endAccess.choices = s.choices := rfl
@[simp] theorem State.endAccess_pending : s.endAccess.pending = s.pending := rfl

/-! ### setFrame -/

@[simp] theorem State.setFrame_part (n : Nat) (f : Frame) : (s.setFrame n f).part = s.part := by
  unfold State.setFrame State.setFlagIf; split <;> rfl
@[simp] theorem State.setFrame_params (n : Nat) (f : Frame) : (s.setFrame n f).params = s.params := by
  unfold State.setFrame State.setFlagIf; split <;> rfl
@[simp] theorem State.setFrame_store (n : Nat) (f : Frame) : (s.setFrame n f).store = { s.store with frames := put n f s.store.frames } := by
  unfold State.setFrame State.setFlagIf; split <;> rfl
@[simp] theorem State.setFrame_cards (n : Nat) (f : Frame) : (s.setFrame n f).cards = s.cards := by
  unfold State.setFrame State.setFlagIf; split <;> rfl
@[simp] theorem State.setFrame_book (n : Nat) (f : Frame) : (s.setFrame n f).book = s.book := by
  unfold State.setFrame State.setFlagIf; split <;> rfl
@[simp] theorem State.setFrame_lines (n : Nat) (f : Frame) : (s.setFrame n f).lines = s.lines := by
  unfold State.setFrame State.setFlagIf; split <;> rfl
@[simp] theorem State.setFrame_tenders (n : Nat) (f : Frame) : (s.setFrame n f).tenders = s.tenders := by
  unfold State.setFrame State.setFlagIf; split <;> rfl
@[simp] theorem State.setFrame_engines (n : Nat) (f : Frame) : (s.setFrame n f).engines = s.engines := by
  unfold State.setFrame State.setFlagIf; split <;> rfl
@[simp] theorem State.setFrame_ready (n : Nat) (f : Frame) : (s.setFrame n f).ready = s.ready := by
  unfold State.setFrame State.setFlagIf; split <;> rfl
@[simp] theorem State.setFrame_thermal (n : Nat) (f : Frame) : (s.setFrame n f).thermal = s.thermal := by
  unfold State.setFrame State.setFlagIf; split <;> rfl
@[simp] theorem State.setFrame_bus (n : Nat) (f : Frame) : (s.setFrame n f).bus = s.bus := by
  unfold State.setFrame State.setFlagIf; split <;> rfl
@[simp] theorem State.setFrame_loader (n : Nat) (f : Frame) : (s.setFrame n f).loader = s.loader := by
  unfold State.setFrame State.setFlagIf; split <;> rfl
@[simp] theorem State.setFrame_choices (n : Nat) (f : Frame) : (s.setFrame n f).choices = s.choices := by
  unfold State.setFrame State.setFlagIf; split <;> rfl
@[simp] theorem State.setFrame_pending (n : Nat) (f : Frame) : (s.setFrame n f).pending = s.pending := by
  unfold State.setFrame State.setFlagIf; split <;> rfl

/-! ### dropFrame -/

@[simp] theorem State.dropFrame_part (n : Nat) : (s.dropFrame n).part = s.part := rfl
@[simp] theorem State.dropFrame_params (n : Nat) : (s.dropFrame n).params = s.params := rfl
@[simp] theorem State.dropFrame_store (n : Nat) : (s.dropFrame n).store = { s.store with frames := erase n s.store.frames, notices := s.store.notices.filter fun k => k ≠ n } := rfl
@[simp] theorem State.dropFrame_cards (n : Nat) : (s.dropFrame n).cards = s.cards := rfl
@[simp] theorem State.dropFrame_book (n : Nat) : (s.dropFrame n).book = s.book := rfl
@[simp] theorem State.dropFrame_lines (n : Nat) : (s.dropFrame n).lines = s.lines := rfl
@[simp] theorem State.dropFrame_tenders (n : Nat) : (s.dropFrame n).tenders = s.tenders := rfl
@[simp] theorem State.dropFrame_engines (n : Nat) : (s.dropFrame n).engines = s.engines := rfl
@[simp] theorem State.dropFrame_ready (n : Nat) : (s.dropFrame n).ready = s.ready := rfl
@[simp] theorem State.dropFrame_thermal (n : Nat) : (s.dropFrame n).thermal = s.thermal := rfl
@[simp] theorem State.dropFrame_bus (n : Nat) : (s.dropFrame n).bus = s.bus := rfl
@[simp] theorem State.dropFrame_loader (n : Nat) : (s.dropFrame n).loader = s.loader := rfl
@[simp] theorem State.dropFrame_choices (n : Nat) : (s.dropFrame n).choices = s.choices := rfl
@[simp] theorem State.dropFrame_pending (n : Nat) : (s.dropFrame n).pending = s.pending := rfl

/-! ### setSlot -/

@[simp] theorem State.setSlot_part (i : Fin 8) (t : Slot) : (s.setSlot i t).part = s.part := by
  unfold State.setSlot State.setFlagIf; split <;> rfl
@[simp] theorem State.setSlot_params (i : Fin 8) (t : Slot) : (s.setSlot i t).params = s.params := by
  unfold State.setSlot State.setFlagIf; split <;> rfl
@[simp] theorem State.setSlot_store (i : Fin 8) (t : Slot) : (s.setSlot i t).store = s.store := by
  unfold State.setSlot State.setFlagIf; split <;> rfl
@[simp] theorem State.setSlot_cards (i : Fin 8) (t : Slot) : (s.setSlot i t).cards = { s.cards with slots := s.cards.slots.set i t } := by
  unfold State.setSlot State.setFlagIf; split <;> rfl
@[simp] theorem State.setSlot_book (i : Fin 8) (t : Slot) : (s.setSlot i t).book = s.book := by
  unfold State.setSlot State.setFlagIf; split <;> rfl
@[simp] theorem State.setSlot_lines (i : Fin 8) (t : Slot) : (s.setSlot i t).lines = s.lines := by
  unfold State.setSlot State.setFlagIf; split <;> rfl
@[simp] theorem State.setSlot_tenders (i : Fin 8) (t : Slot) : (s.setSlot i t).tenders = s.tenders := by
  unfold State.setSlot State.setFlagIf; split <;> rfl
@[simp] theorem State.setSlot_engines (i : Fin 8) (t : Slot) : (s.setSlot i t).engines = s.engines := by
  unfold State.setSlot State.setFlagIf; split <;> rfl
@[simp] theorem State.setSlot_ready (i : Fin 8) (t : Slot) : (s.setSlot i t).ready = s.ready := by
  unfold State.setSlot State.setFlagIf; split <;> rfl
@[simp] theorem State.setSlot_thermal (i : Fin 8) (t : Slot) : (s.setSlot i t).thermal = s.thermal := by
  unfold State.setSlot State.setFlagIf; split <;> rfl
@[simp] theorem State.setSlot_bus (i : Fin 8) (t : Slot) : (s.setSlot i t).bus = s.bus := by
  unfold State.setSlot State.setFlagIf; split <;> rfl
@[simp] theorem State.setSlot_loader (i : Fin 8) (t : Slot) : (s.setSlot i t).loader = s.loader := by
  unfold State.setSlot State.setFlagIf; split <;> rfl
@[simp] theorem State.setSlot_choices (i : Fin 8) (t : Slot) : (s.setSlot i t).choices = s.choices := by
  unfold State.setSlot State.setFlagIf; split <;> rfl
@[simp] theorem State.setSlot_pending (i : Fin 8) (t : Slot) : (s.setSlot i t).pending = s.pending := by
  unfold State.setSlot State.setFlagIf; split <;> rfl

/-! ### modSlot -/

@[simp] theorem State.modSlot_part (i : Fin 8) (g : Slot → Slot) : (s.modSlot i g).part = s.part := by
  unfold State.modSlot State.setSlot State.setFlagIf; split <;> rfl
@[simp] theorem State.modSlot_params (i : Fin 8) (g : Slot → Slot) : (s.modSlot i g).params = s.params := by
  unfold State.modSlot State.setSlot State.setFlagIf; split <;> rfl
@[simp] theorem State.modSlot_store (i : Fin 8) (g : Slot → Slot) : (s.modSlot i g).store = s.store := by
  unfold State.modSlot State.setSlot State.setFlagIf; split <;> rfl
@[simp] theorem State.modSlot_cards (i : Fin 8) (g : Slot → Slot) : (s.modSlot i g).cards = { s.cards with slots := s.cards.slots.set i (g (s.slot i)) } := by
  unfold State.modSlot State.setSlot State.setFlagIf; split <;> rfl
@[simp] theorem State.modSlot_book (i : Fin 8) (g : Slot → Slot) : (s.modSlot i g).book = s.book := by
  unfold State.modSlot State.setSlot State.setFlagIf; split <;> rfl
@[simp] theorem State.modSlot_lines (i : Fin 8) (g : Slot → Slot) : (s.modSlot i g).lines = s.lines := by
  unfold State.modSlot State.setSlot State.setFlagIf; split <;> rfl
@[simp] theorem State.modSlot_tenders (i : Fin 8) (g : Slot → Slot) : (s.modSlot i g).tenders = s.tenders := by
  unfold State.modSlot State.setSlot State.setFlagIf; split <;> rfl
@[simp] theorem State.modSlot_engines (i : Fin 8) (g : Slot → Slot) : (s.modSlot i g).engines = s.engines := by
  unfold State.modSlot State.setSlot State.setFlagIf; split <;> rfl
@[simp] theorem State.modSlot_ready (i : Fin 8) (g : Slot → Slot) : (s.modSlot i g).ready = s.ready := by
  unfold State.modSlot State.setSlot State.setFlagIf; split <;> rfl
@[simp] theorem State.modSlot_thermal (i : Fin 8) (g : Slot → Slot) : (s.modSlot i g).thermal = s.thermal := by
  unfold State.modSlot State.setSlot State.setFlagIf; split <;> rfl
@[simp] theorem State.modSlot_bus (i : Fin 8) (g : Slot → Slot) : (s.modSlot i g).bus = s.bus := by
  unfold State.modSlot State.setSlot State.setFlagIf; split <;> rfl
@[simp] theorem State.modSlot_loader (i : Fin 8) (g : Slot → Slot) : (s.modSlot i g).loader = s.loader := by
  unfold State.modSlot State.setSlot State.setFlagIf; split <;> rfl
@[simp] theorem State.modSlot_choices (i : Fin 8) (g : Slot → Slot) : (s.modSlot i g).choices = s.choices := by
  unfold State.modSlot State.setSlot State.setFlagIf; split <;> rfl
@[simp] theorem State.modSlot_pending (i : Fin 8) (g : Slot → Slot) : (s.modSlot i g).pending = s.pending := by
  unfold State.modSlot State.setSlot State.setFlagIf; split <;> rfl

/-! ### modLink -/

@[simp] theorem State.modLink_part (k : Fin 4) (g : CardLink → CardLink) : (s.modLink k g).part = s.part := rfl
@[simp] theorem State.modLink_link (k : Fin 4) (g : CardLink → CardLink) : (s.modLink k g).link = s.link := rfl
@[simp] theorem State.modLink_params (k : Fin 4) (g : CardLink → CardLink) : (s.modLink k g).params = s.params := rfl
@[simp] theorem State.modLink_store (k : Fin 4) (g : CardLink → CardLink) : (s.modLink k g).store = s.store := rfl
@[simp] theorem State.modLink_cards (k : Fin 4) (g : CardLink → CardLink) : (s.modLink k g).cards = { s.cards with links := s.cards.links.set k (g (s.cardLink k)) } := rfl
@[simp] theorem State.modLink_book (k : Fin 4) (g : CardLink → CardLink) : (s.modLink k g).book = s.book := rfl
@[simp] theorem State.modLink_lines (k : Fin 4) (g : CardLink → CardLink) : (s.modLink k g).lines = s.lines := rfl
@[simp] theorem State.modLink_tenders (k : Fin 4) (g : CardLink → CardLink) : (s.modLink k g).tenders = s.tenders := rfl
@[simp] theorem State.modLink_engines (k : Fin 4) (g : CardLink → CardLink) : (s.modLink k g).engines = s.engines := rfl
@[simp] theorem State.modLink_ready (k : Fin 4) (g : CardLink → CardLink) : (s.modLink k g).ready = s.ready := rfl
@[simp] theorem State.modLink_thermal (k : Fin 4) (g : CardLink → CardLink) : (s.modLink k g).thermal = s.thermal := rfl
@[simp] theorem State.modLink_bus (k : Fin 4) (g : CardLink → CardLink) : (s.modLink k g).bus = s.bus := rfl
@[simp] theorem State.modLink_loader (k : Fin 4) (g : CardLink → CardLink) : (s.modLink k g).loader = s.loader := rfl
@[simp] theorem State.modLink_choices (k : Fin 4) (g : CardLink → CardLink) : (s.modLink k g).choices = s.choices := rfl
@[simp] theorem State.modLink_pending (k : Fin 4) (g : CardLink → CardLink) : (s.modLink k g).pending = s.pending := rfl

/-! ### setOrder -/

@[simp] theorem State.setOrder_part (n : Nat) (o : Order) : (s.setOrder n o).part = s.part := by
  unfold State.setOrder State.setFlagIf; split <;> rfl
@[simp] theorem State.setOrder_params (n : Nat) (o : Order) : (s.setOrder n o).params = s.params := by
  unfold State.setOrder State.setFlagIf; split <;> rfl
@[simp] theorem State.setOrder_store (n : Nat) (o : Order) : (s.setOrder n o).store = s.store := by
  unfold State.setOrder State.setFlagIf; split <;> rfl
@[simp] theorem State.setOrder_cards (n : Nat) (o : Order) : (s.setOrder n o).cards = s.cards := by
  unfold State.setOrder State.setFlagIf; split <;> rfl
@[simp] theorem State.setOrder_book (n : Nat) (o : Order) : (s.setOrder n o).book = { s.book with orders := put n o s.book.orders } := by
  unfold State.setOrder State.setFlagIf; split <;> rfl
@[simp] theorem State.setOrder_lines (n : Nat) (o : Order) : (s.setOrder n o).lines = s.lines := by
  unfold State.setOrder State.setFlagIf; split <;> rfl
@[simp] theorem State.setOrder_tenders (n : Nat) (o : Order) : (s.setOrder n o).tenders = s.tenders := by
  unfold State.setOrder State.setFlagIf; split <;> rfl
@[simp] theorem State.setOrder_engines (n : Nat) (o : Order) : (s.setOrder n o).engines = s.engines := by
  unfold State.setOrder State.setFlagIf; split <;> rfl
@[simp] theorem State.setOrder_ready (n : Nat) (o : Order) : (s.setOrder n o).ready = s.ready := by
  unfold State.setOrder State.setFlagIf; split <;> rfl
@[simp] theorem State.setOrder_thermal (n : Nat) (o : Order) : (s.setOrder n o).thermal = s.thermal := by
  unfold State.setOrder State.setFlagIf; split <;> rfl
@[simp] theorem State.setOrder_bus (n : Nat) (o : Order) : (s.setOrder n o).bus = s.bus := by
  unfold State.setOrder State.setFlagIf; split <;> rfl
@[simp] theorem State.setOrder_loader (n : Nat) (o : Order) : (s.setOrder n o).loader = s.loader := by
  unfold State.setOrder State.setFlagIf; split <;> rfl
@[simp] theorem State.setOrder_choices (n : Nat) (o : Order) : (s.setOrder n o).choices = s.choices := by
  unfold State.setOrder State.setFlagIf; split <;> rfl
@[simp] theorem State.setOrder_pending (n : Nat) (o : Order) : (s.setOrder n o).pending = s.pending := by
  unfold State.setOrder State.setFlagIf; split <;> rfl

/-! ### setLineRec -/

@[simp] theorem State.setLineRec_part (i : Fin 4) (p : PayLine) : (s.setLineRec i p).part = s.part := by
  unfold State.setLineRec State.setFlagIf; split <;> rfl
@[simp] theorem State.setLineRec_params (i : Fin 4) (p : PayLine) : (s.setLineRec i p).params = s.params := by
  unfold State.setLineRec State.setFlagIf; split <;> rfl
@[simp] theorem State.setLineRec_store (i : Fin 4) (p : PayLine) : (s.setLineRec i p).store = s.store := by
  unfold State.setLineRec State.setFlagIf; split <;> rfl
@[simp] theorem State.setLineRec_cards (i : Fin 4) (p : PayLine) : (s.setLineRec i p).cards = s.cards := by
  unfold State.setLineRec State.setFlagIf; split <;> rfl
@[simp] theorem State.setLineRec_book (i : Fin 4) (p : PayLine) : (s.setLineRec i p).book = s.book := by
  unfold State.setLineRec State.setFlagIf; split <;> rfl
@[simp] theorem State.setLineRec_lines (i : Fin 4) (p : PayLine) : (s.setLineRec i p).lines = s.lines.set i p := by
  unfold State.setLineRec State.setFlagIf; split <;> rfl
@[simp] theorem State.setLineRec_tenders (i : Fin 4) (p : PayLine) : (s.setLineRec i p).tenders = s.tenders := by
  unfold State.setLineRec State.setFlagIf; split <;> rfl
@[simp] theorem State.setLineRec_engines (i : Fin 4) (p : PayLine) : (s.setLineRec i p).engines = s.engines := by
  unfold State.setLineRec State.setFlagIf; split <;> rfl
@[simp] theorem State.setLineRec_ready (i : Fin 4) (p : PayLine) : (s.setLineRec i p).ready = s.ready := by
  unfold State.setLineRec State.setFlagIf; split <;> rfl
@[simp] theorem State.setLineRec_thermal (i : Fin 4) (p : PayLine) : (s.setLineRec i p).thermal = s.thermal := by
  unfold State.setLineRec State.setFlagIf; split <;> rfl
@[simp] theorem State.setLineRec_bus (i : Fin 4) (p : PayLine) : (s.setLineRec i p).bus = s.bus := by
  unfold State.setLineRec State.setFlagIf; split <;> rfl
@[simp] theorem State.setLineRec_loader (i : Fin 4) (p : PayLine) : (s.setLineRec i p).loader = s.loader := by
  unfold State.setLineRec State.setFlagIf; split <;> rfl
@[simp] theorem State.setLineRec_choices (i : Fin 4) (p : PayLine) : (s.setLineRec i p).choices = s.choices := by
  unfold State.setLineRec State.setFlagIf; split <;> rfl
@[simp] theorem State.setLineRec_pending (i : Fin 4) (p : PayLine) : (s.setLineRec i p).pending = s.pending := by
  unfold State.setLineRec State.setFlagIf; split <;> rfl

/-! ### modLine -/

@[simp] theorem State.modLine_part (i : Fin 4) (g : PayLine → PayLine) : (s.modLine i g).part = s.part := by
  unfold State.modLine State.setLineRec State.setFlagIf; split <;> rfl
@[simp] theorem State.modLine_params (i : Fin 4) (g : PayLine → PayLine) : (s.modLine i g).params = s.params := by
  unfold State.modLine State.setLineRec State.setFlagIf; split <;> rfl
@[simp] theorem State.modLine_store (i : Fin 4) (g : PayLine → PayLine) : (s.modLine i g).store = s.store := by
  unfold State.modLine State.setLineRec State.setFlagIf; split <;> rfl
@[simp] theorem State.modLine_cards (i : Fin 4) (g : PayLine → PayLine) : (s.modLine i g).cards = s.cards := by
  unfold State.modLine State.setLineRec State.setFlagIf; split <;> rfl
@[simp] theorem State.modLine_book (i : Fin 4) (g : PayLine → PayLine) : (s.modLine i g).book = s.book := by
  unfold State.modLine State.setLineRec State.setFlagIf; split <;> rfl
@[simp] theorem State.modLine_lines (i : Fin 4) (g : PayLine → PayLine) : (s.modLine i g).lines = s.lines.set i (g (s.line i)) := by
  unfold State.modLine State.setLineRec State.setFlagIf; split <;> rfl
@[simp] theorem State.modLine_tenders (i : Fin 4) (g : PayLine → PayLine) : (s.modLine i g).tenders = s.tenders := by
  unfold State.modLine State.setLineRec State.setFlagIf; split <;> rfl
@[simp] theorem State.modLine_engines (i : Fin 4) (g : PayLine → PayLine) : (s.modLine i g).engines = s.engines := by
  unfold State.modLine State.setLineRec State.setFlagIf; split <;> rfl
@[simp] theorem State.modLine_ready (i : Fin 4) (g : PayLine → PayLine) : (s.modLine i g).ready = s.ready := by
  unfold State.modLine State.setLineRec State.setFlagIf; split <;> rfl
@[simp] theorem State.modLine_thermal (i : Fin 4) (g : PayLine → PayLine) : (s.modLine i g).thermal = s.thermal := by
  unfold State.modLine State.setLineRec State.setFlagIf; split <;> rfl
@[simp] theorem State.modLine_bus (i : Fin 4) (g : PayLine → PayLine) : (s.modLine i g).bus = s.bus := by
  unfold State.modLine State.setLineRec State.setFlagIf; split <;> rfl
@[simp] theorem State.modLine_loader (i : Fin 4) (g : PayLine → PayLine) : (s.modLine i g).loader = s.loader := by
  unfold State.modLine State.setLineRec State.setFlagIf; split <;> rfl
@[simp] theorem State.modLine_choices (i : Fin 4) (g : PayLine → PayLine) : (s.modLine i g).choices = s.choices := by
  unfold State.modLine State.setLineRec State.setFlagIf; split <;> rfl
@[simp] theorem State.modLine_pending (i : Fin 4) (g : PayLine → PayLine) : (s.modLine i g).pending = s.pending := by
  unfold State.modLine State.setLineRec State.setFlagIf; split <;> rfl

/-! ### setTender -/

@[simp] theorem State.setTender_part (t : Nat) (r : Tender) : (s.setTender t r).part = s.part := by
  unfold State.setTender State.setFlagIf; split <;> rfl
@[simp] theorem State.setTender_params (t : Nat) (r : Tender) : (s.setTender t r).params = s.params := by
  unfold State.setTender State.setFlagIf; split <;> rfl
@[simp] theorem State.setTender_store (t : Nat) (r : Tender) : (s.setTender t r).store = s.store := by
  unfold State.setTender State.setFlagIf; split <;> rfl
@[simp] theorem State.setTender_cards (t : Nat) (r : Tender) : (s.setTender t r).cards = s.cards := by
  unfold State.setTender State.setFlagIf; split <;> rfl
@[simp] theorem State.setTender_book (t : Nat) (r : Tender) : (s.setTender t r).book = s.book := by
  unfold State.setTender State.setFlagIf; split <;> rfl
@[simp] theorem State.setTender_lines (t : Nat) (r : Tender) : (s.setTender t r).lines = s.lines := by
  unfold State.setTender State.setFlagIf; split <;> rfl
@[simp] theorem State.setTender_tenders (t : Nat) (r : Tender) : (s.setTender t r).tenders = { s.tenders with tenders := put t r s.tenders.tenders } := by
  unfold State.setTender State.setFlagIf; split <;> rfl
@[simp] theorem State.setTender_engines (t : Nat) (r : Tender) : (s.setTender t r).engines = s.engines := by
  unfold State.setTender State.setFlagIf; split <;> rfl
@[simp] theorem State.setTender_ready (t : Nat) (r : Tender) : (s.setTender t r).ready = s.ready := by
  unfold State.setTender State.setFlagIf; split <;> rfl
@[simp] theorem State.setTender_thermal (t : Nat) (r : Tender) : (s.setTender t r).thermal = s.thermal := by
  unfold State.setTender State.setFlagIf; split <;> rfl
@[simp] theorem State.setTender_bus (t : Nat) (r : Tender) : (s.setTender t r).bus = s.bus := by
  unfold State.setTender State.setFlagIf; split <;> rfl
@[simp] theorem State.setTender_loader (t : Nat) (r : Tender) : (s.setTender t r).loader = s.loader := by
  unfold State.setTender State.setFlagIf; split <;> rfl
@[simp] theorem State.setTender_choices (t : Nat) (r : Tender) : (s.setTender t r).choices = s.choices := by
  unfold State.setTender State.setFlagIf; split <;> rfl
@[simp] theorem State.setTender_pending (t : Nat) (r : Tender) : (s.setTender t r).pending = s.pending := by
  unfold State.setTender State.setFlagIf; split <;> rfl

/-! ### setExchangeQueue -/

@[simp] theorem State.setExchangeQueue_part (i : Fin 4) (q : List Nat) : (s.setExchangeQueue i q).part = s.part := rfl
@[simp] theorem State.setExchangeQueue_link (i : Fin 4) (q : List Nat) : (s.setExchangeQueue i q).link = s.link := rfl
@[simp] theorem State.setExchangeQueue_params (i : Fin 4) (q : List Nat) : (s.setExchangeQueue i q).params = s.params := rfl
@[simp] theorem State.setExchangeQueue_store (i : Fin 4) (q : List Nat) : (s.setExchangeQueue i q).store = s.store := rfl
@[simp] theorem State.setExchangeQueue_cards (i : Fin 4) (q : List Nat) : (s.setExchangeQueue i q).cards = s.cards := rfl
@[simp] theorem State.setExchangeQueue_book (i : Fin 4) (q : List Nat) : (s.setExchangeQueue i q).book = s.book := rfl
@[simp] theorem State.setExchangeQueue_lines (i : Fin 4) (q : List Nat) : (s.setExchangeQueue i q).lines = s.lines := rfl
@[simp] theorem State.setExchangeQueue_tenders (i : Fin 4) (q : List Nat) : (s.setExchangeQueue i q).tenders = { s.tenders with queues := s.tenders.queues.set i q } := rfl
@[simp] theorem State.setExchangeQueue_engines (i : Fin 4) (q : List Nat) : (s.setExchangeQueue i q).engines = s.engines := rfl
@[simp] theorem State.setExchangeQueue_ready (i : Fin 4) (q : List Nat) : (s.setExchangeQueue i q).ready = s.ready := rfl
@[simp] theorem State.setExchangeQueue_thermal (i : Fin 4) (q : List Nat) : (s.setExchangeQueue i q).thermal = s.thermal := rfl
@[simp] theorem State.setExchangeQueue_bus (i : Fin 4) (q : List Nat) : (s.setExchangeQueue i q).bus = s.bus := rfl
@[simp] theorem State.setExchangeQueue_loader (i : Fin 4) (q : List Nat) : (s.setExchangeQueue i q).loader = s.loader := rfl
@[simp] theorem State.setExchangeQueue_choices (i : Fin 4) (q : List Nat) : (s.setExchangeQueue i q).choices = s.choices := rfl
@[simp] theorem State.setExchangeQueue_pending (i : Fin 4) (q : List Nat) : (s.setExchangeQueue i q).pending = s.pending := rfl

/-! ### setInService -/

@[simp] theorem State.setInService_part (i : Fin 4) (b : Bool) : (s.setInService i b).part = s.part := rfl
@[simp] theorem State.setInService_link (i : Fin 4) (b : Bool) : (s.setInService i b).link = s.link := rfl
@[simp] theorem State.setInService_params (i : Fin 4) (b : Bool) : (s.setInService i b).params = s.params := rfl
@[simp] theorem State.setInService_store (i : Fin 4) (b : Bool) : (s.setInService i b).store = s.store := rfl
@[simp] theorem State.setInService_cards (i : Fin 4) (b : Bool) : (s.setInService i b).cards = s.cards := rfl
@[simp] theorem State.setInService_book (i : Fin 4) (b : Bool) : (s.setInService i b).book = s.book := rfl
@[simp] theorem State.setInService_lines (i : Fin 4) (b : Bool) : (s.setInService i b).lines = s.lines := rfl
@[simp] theorem State.setInService_tenders (i : Fin 4) (b : Bool) : (s.setInService i b).tenders = { s.tenders with inService := s.tenders.inService.set i b } := rfl
@[simp] theorem State.setInService_engines (i : Fin 4) (b : Bool) : (s.setInService i b).engines = s.engines := rfl
@[simp] theorem State.setInService_ready (i : Fin 4) (b : Bool) : (s.setInService i b).ready = s.ready := rfl
@[simp] theorem State.setInService_thermal (i : Fin 4) (b : Bool) : (s.setInService i b).thermal = s.thermal := rfl
@[simp] theorem State.setInService_bus (i : Fin 4) (b : Bool) : (s.setInService i b).bus = s.bus := rfl
@[simp] theorem State.setInService_loader (i : Fin 4) (b : Bool) : (s.setInService i b).loader = s.loader := rfl
@[simp] theorem State.setInService_choices (i : Fin 4) (b : Bool) : (s.setInService i b).choices = s.choices := rfl
@[simp] theorem State.setInService_pending (i : Fin 4) (b : Bool) : (s.setInService i b).pending = s.pending := rfl

/-! ### setEngineRec -/

@[simp] theorem State.setEngineRec_part (e : Fin 3) (r : Engine) : (s.setEngineRec e r).part = s.part := by
  unfold State.setEngineRec State.setFlagIf; split <;> rfl
@[simp] theorem State.setEngineRec_params (e : Fin 3) (r : Engine) : (s.setEngineRec e r).params = s.params := by
  unfold State.setEngineRec State.setFlagIf; split <;> rfl
@[simp] theorem State.setEngineRec_store (e : Fin 3) (r : Engine) : (s.setEngineRec e r).store = s.store := by
  unfold State.setEngineRec State.setFlagIf; split <;> rfl
@[simp] theorem State.setEngineRec_cards (e : Fin 3) (r : Engine) : (s.setEngineRec e r).cards = s.cards := by
  unfold State.setEngineRec State.setFlagIf; split <;> rfl
@[simp] theorem State.setEngineRec_book (e : Fin 3) (r : Engine) : (s.setEngineRec e r).book = s.book := by
  unfold State.setEngineRec State.setFlagIf; split <;> rfl
@[simp] theorem State.setEngineRec_lines (e : Fin 3) (r : Engine) : (s.setEngineRec e r).lines = s.lines := by
  unfold State.setEngineRec State.setFlagIf; split <;> rfl
@[simp] theorem State.setEngineRec_tenders (e : Fin 3) (r : Engine) : (s.setEngineRec e r).tenders = s.tenders := by
  unfold State.setEngineRec State.setFlagIf; split <;> rfl
@[simp] theorem State.setEngineRec_engines (e : Fin 3) (r : Engine) : (s.setEngineRec e r).engines = s.engines.set e r := by
  unfold State.setEngineRec State.setFlagIf; split <;> rfl
@[simp] theorem State.setEngineRec_ready (e : Fin 3) (r : Engine) : (s.setEngineRec e r).ready = s.ready := by
  unfold State.setEngineRec State.setFlagIf; split <;> rfl
@[simp] theorem State.setEngineRec_thermal (e : Fin 3) (r : Engine) : (s.setEngineRec e r).thermal = s.thermal := by
  unfold State.setEngineRec State.setFlagIf; split <;> rfl
@[simp] theorem State.setEngineRec_bus (e : Fin 3) (r : Engine) : (s.setEngineRec e r).bus = s.bus := by
  unfold State.setEngineRec State.setFlagIf; split <;> rfl
@[simp] theorem State.setEngineRec_loader (e : Fin 3) (r : Engine) : (s.setEngineRec e r).loader = s.loader := by
  unfold State.setEngineRec State.setFlagIf; split <;> rfl
@[simp] theorem State.setEngineRec_choices (e : Fin 3) (r : Engine) : (s.setEngineRec e r).choices = s.choices := by
  unfold State.setEngineRec State.setFlagIf; split <;> rfl
@[simp] theorem State.setEngineRec_pending (e : Fin 3) (r : Engine) : (s.setEngineRec e r).pending = s.pending := by
  unfold State.setEngineRec State.setFlagIf; split <;> rfl

/-! ### modEngine -/

@[simp] theorem State.modEngine_part (e : Fin 3) (g : Engine → Engine) : (s.modEngine e g).part = s.part := by
  unfold State.modEngine State.setEngineRec State.setFlagIf; split <;> rfl
@[simp] theorem State.modEngine_params (e : Fin 3) (g : Engine → Engine) : (s.modEngine e g).params = s.params := by
  unfold State.modEngine State.setEngineRec State.setFlagIf; split <;> rfl
@[simp] theorem State.modEngine_store (e : Fin 3) (g : Engine → Engine) : (s.modEngine e g).store = s.store := by
  unfold State.modEngine State.setEngineRec State.setFlagIf; split <;> rfl
@[simp] theorem State.modEngine_cards (e : Fin 3) (g : Engine → Engine) : (s.modEngine e g).cards = s.cards := by
  unfold State.modEngine State.setEngineRec State.setFlagIf; split <;> rfl
@[simp] theorem State.modEngine_book (e : Fin 3) (g : Engine → Engine) : (s.modEngine e g).book = s.book := by
  unfold State.modEngine State.setEngineRec State.setFlagIf; split <;> rfl
@[simp] theorem State.modEngine_lines (e : Fin 3) (g : Engine → Engine) : (s.modEngine e g).lines = s.lines := by
  unfold State.modEngine State.setEngineRec State.setFlagIf; split <;> rfl
@[simp] theorem State.modEngine_tenders (e : Fin 3) (g : Engine → Engine) : (s.modEngine e g).tenders = s.tenders := by
  unfold State.modEngine State.setEngineRec State.setFlagIf; split <;> rfl
@[simp] theorem State.modEngine_engines (e : Fin 3) (g : Engine → Engine) : (s.modEngine e g).engines = s.engines.set e (g (s.engine e)) := by
  unfold State.modEngine State.setEngineRec State.setFlagIf; split <;> rfl
@[simp] theorem State.modEngine_ready (e : Fin 3) (g : Engine → Engine) : (s.modEngine e g).ready = s.ready := by
  unfold State.modEngine State.setEngineRec State.setFlagIf; split <;> rfl
@[simp] theorem State.modEngine_thermal (e : Fin 3) (g : Engine → Engine) : (s.modEngine e g).thermal = s.thermal := by
  unfold State.modEngine State.setEngineRec State.setFlagIf; split <;> rfl
@[simp] theorem State.modEngine_bus (e : Fin 3) (g : Engine → Engine) : (s.modEngine e g).bus = s.bus := by
  unfold State.modEngine State.setEngineRec State.setFlagIf; split <;> rfl
@[simp] theorem State.modEngine_loader (e : Fin 3) (g : Engine → Engine) : (s.modEngine e g).loader = s.loader := by
  unfold State.modEngine State.setEngineRec State.setFlagIf; split <;> rfl
@[simp] theorem State.modEngine_choices (e : Fin 3) (g : Engine → Engine) : (s.modEngine e g).choices = s.choices := by
  unfold State.modEngine State.setEngineRec State.setFlagIf; split <;> rfl
@[simp] theorem State.modEngine_pending (e : Fin 3) (g : Engine → Engine) : (s.modEngine e g).pending = s.pending := by
  unfold State.modEngine State.setEngineRec State.setFlagIf; split <;> rfl

/-! ### modChannel -/

@[simp] theorem State.modChannel_part (e : Fin 3) (g : Channel → Channel) : (s.modChannel e g).part = s.part := by
  unfold State.modChannel State.modEngine State.setEngineRec State.setFlagIf; split <;> rfl
@[simp] theorem State.modChannel_params (e : Fin 3) (g : Channel → Channel) : (s.modChannel e g).params = s.params := by
  unfold State.modChannel State.modEngine State.setEngineRec State.setFlagIf; split <;> rfl
@[simp] theorem State.modChannel_store (e : Fin 3) (g : Channel → Channel) : (s.modChannel e g).store = s.store := by
  unfold State.modChannel State.modEngine State.setEngineRec State.setFlagIf; split <;> rfl
@[simp] theorem State.modChannel_cards (e : Fin 3) (g : Channel → Channel) : (s.modChannel e g).cards = s.cards := by
  unfold State.modChannel State.modEngine State.setEngineRec State.setFlagIf; split <;> rfl
@[simp] theorem State.modChannel_book (e : Fin 3) (g : Channel → Channel) : (s.modChannel e g).book = s.book := by
  unfold State.modChannel State.modEngine State.setEngineRec State.setFlagIf; split <;> rfl
@[simp] theorem State.modChannel_lines (e : Fin 3) (g : Channel → Channel) : (s.modChannel e g).lines = s.lines := by
  unfold State.modChannel State.modEngine State.setEngineRec State.setFlagIf; split <;> rfl
@[simp] theorem State.modChannel_tenders (e : Fin 3) (g : Channel → Channel) : (s.modChannel e g).tenders = s.tenders := by
  unfold State.modChannel State.modEngine State.setEngineRec State.setFlagIf; split <;> rfl
@[simp] theorem State.modChannel_engines (e : Fin 3) (g : Channel → Channel) : (s.modChannel e g).engines = s.engines.set e { s.engine e with channel := g (s.engine e).channel } := by
  unfold State.modChannel State.modEngine State.setEngineRec State.setFlagIf; split <;> rfl
@[simp] theorem State.modChannel_ready (e : Fin 3) (g : Channel → Channel) : (s.modChannel e g).ready = s.ready := by
  unfold State.modChannel State.modEngine State.setEngineRec State.setFlagIf; split <;> rfl
@[simp] theorem State.modChannel_thermal (e : Fin 3) (g : Channel → Channel) : (s.modChannel e g).thermal = s.thermal := by
  unfold State.modChannel State.modEngine State.setEngineRec State.setFlagIf; split <;> rfl
@[simp] theorem State.modChannel_bus (e : Fin 3) (g : Channel → Channel) : (s.modChannel e g).bus = s.bus := by
  unfold State.modChannel State.modEngine State.setEngineRec State.setFlagIf; split <;> rfl
@[simp] theorem State.modChannel_loader (e : Fin 3) (g : Channel → Channel) : (s.modChannel e g).loader = s.loader := by
  unfold State.modChannel State.modEngine State.setEngineRec State.setFlagIf; split <;> rfl
@[simp] theorem State.modChannel_choices (e : Fin 3) (g : Channel → Channel) : (s.modChannel e g).choices = s.choices := by
  unfold State.modChannel State.modEngine State.setEngineRec State.setFlagIf; split <;> rfl
@[simp] theorem State.modChannel_pending (e : Fin 3) (g : Channel → Channel) : (s.modChannel e g).pending = s.pending := by
  unfold State.modChannel State.modEngine State.setEngineRec State.setFlagIf; split <;> rfl

/-! ### insertPair -/

@[simp] theorem State.insertPair_part (p : Nat × Nat) : (s.insertPair p).part = s.part := by
  unfold State.insertPair; split <;> rfl
@[simp] theorem State.insertPair_link (p : Nat × Nat) : (s.insertPair p).link = s.link := by
  unfold State.insertPair; split <;> rfl
@[simp] theorem State.insertPair_params (p : Nat × Nat) : (s.insertPair p).params = s.params := by
  unfold State.insertPair; split <;> rfl
@[simp] theorem State.insertPair_store (p : Nat × Nat) : (s.insertPair p).store = s.store := by
  unfold State.insertPair; split <;> rfl
@[simp] theorem State.insertPair_cards (p : Nat × Nat) : (s.insertPair p).cards = s.cards := by
  unfold State.insertPair; split <;> rfl
@[simp] theorem State.insertPair_book (p : Nat × Nat) : (s.insertPair p).book = s.book := by
  unfold State.insertPair; split <;> rfl
@[simp] theorem State.insertPair_lines (p : Nat × Nat) : (s.insertPair p).lines = s.lines := by
  unfold State.insertPair; split <;> rfl
@[simp] theorem State.insertPair_tenders (p : Nat × Nat) : (s.insertPair p).tenders = s.tenders := by
  unfold State.insertPair; split <;> rfl
@[simp] theorem State.insertPair_engines (p : Nat × Nat) : (s.insertPair p).engines = s.engines := by
  unfold State.insertPair; split <;> rfl
@[simp] theorem State.insertPair_thermal (p : Nat × Nat) : (s.insertPair p).thermal = s.thermal := by
  unfold State.insertPair; split <;> rfl
@[simp] theorem State.insertPair_bus (p : Nat × Nat) : (s.insertPair p).bus = s.bus := by
  unfold State.insertPair; split <;> rfl
@[simp] theorem State.insertPair_loader (p : Nat × Nat) : (s.insertPair p).loader = s.loader := by
  unfold State.insertPair; split <;> rfl
@[simp] theorem State.insertPair_choices (p : Nat × Nat) : (s.insertPair p).choices = s.choices := by
  unfold State.insertPair; split <;> rfl
@[simp] theorem State.insertPair_pending (p : Nat × Nat) : (s.insertPair p).pending = s.pending := by
  unfold State.insertPair; split <;> rfl

/-! ### removePair -/

@[simp] theorem State.removePair_part (p : Nat × Nat) : (s.removePair p).part = s.part := rfl
@[simp] theorem State.removePair_link (p : Nat × Nat) : (s.removePair p).link = s.link := rfl
@[simp] theorem State.removePair_params (p : Nat × Nat) : (s.removePair p).params = s.params := rfl
@[simp] theorem State.removePair_store (p : Nat × Nat) : (s.removePair p).store = s.store := rfl
@[simp] theorem State.removePair_cards (p : Nat × Nat) : (s.removePair p).cards = s.cards := rfl
@[simp] theorem State.removePair_book (p : Nat × Nat) : (s.removePair p).book = s.book := rfl
@[simp] theorem State.removePair_lines (p : Nat × Nat) : (s.removePair p).lines = s.lines := rfl
@[simp] theorem State.removePair_tenders (p : Nat × Nat) : (s.removePair p).tenders = s.tenders := rfl
@[simp] theorem State.removePair_engines (p : Nat × Nat) : (s.removePair p).engines = s.engines := rfl
@[simp] theorem State.removePair_ready (p : Nat × Nat) : (s.removePair p).ready = s.ready.filter fun q => q ≠ p := rfl
@[simp] theorem State.removePair_thermal (p : Nat × Nat) : (s.removePair p).thermal = s.thermal := rfl
@[simp] theorem State.removePair_bus (p : Nat × Nat) : (s.removePair p).bus = s.bus := rfl
@[simp] theorem State.removePair_loader (p : Nat × Nat) : (s.removePair p).loader = s.loader := rfl
@[simp] theorem State.removePair_choices (p : Nat × Nat) : (s.removePair p).choices = s.choices := rfl
@[simp] theorem State.removePair_pending (p : Nat × Nat) : (s.removePair p).pending = s.pending := rfl

/-! ### removePairs -/

@[simp] theorem State.removePairs_part (n : Nat) : (s.removePairs n).part = s.part := rfl
@[simp] theorem State.removePairs_link (n : Nat) : (s.removePairs n).link = s.link := rfl
@[simp] theorem State.removePairs_params (n : Nat) : (s.removePairs n).params = s.params := rfl
@[simp] theorem State.removePairs_store (n : Nat) : (s.removePairs n).store = s.store := rfl
@[simp] theorem State.removePairs_cards (n : Nat) : (s.removePairs n).cards = s.cards := rfl
@[simp] theorem State.removePairs_book (n : Nat) : (s.removePairs n).book = s.book := rfl
@[simp] theorem State.removePairs_lines (n : Nat) : (s.removePairs n).lines = s.lines := rfl
@[simp] theorem State.removePairs_tenders (n : Nat) : (s.removePairs n).tenders = s.tenders := rfl
@[simp] theorem State.removePairs_engines (n : Nat) : (s.removePairs n).engines = s.engines := rfl
@[simp] theorem State.removePairs_ready (n : Nat) : (s.removePairs n).ready = s.ready.filter fun q => q.1 ≠ n := rfl
@[simp] theorem State.removePairs_thermal (n : Nat) : (s.removePairs n).thermal = s.thermal := rfl
@[simp] theorem State.removePairs_bus (n : Nat) : (s.removePairs n).bus = s.bus := rfl
@[simp] theorem State.removePairs_loader (n : Nat) : (s.removePairs n).loader = s.loader := rfl
@[simp] theorem State.removePairs_choices (n : Nat) : (s.removePairs n).choices = s.choices := rfl
@[simp] theorem State.removePairs_pending (n : Nat) : (s.removePairs n).pending = s.pending := rfl

/-! ### modSensor -/

@[simp] theorem State.modSensor_part (i : Fin 4) (g : Sensor → Sensor) : (s.modSensor i g).part = s.part := rfl
@[simp] theorem State.modSensor_link (i : Fin 4) (g : Sensor → Sensor) : (s.modSensor i g).link = s.link := rfl
@[simp] theorem State.modSensor_params (i : Fin 4) (g : Sensor → Sensor) : (s.modSensor i g).params = s.params := rfl
@[simp] theorem State.modSensor_store (i : Fin 4) (g : Sensor → Sensor) : (s.modSensor i g).store = s.store := rfl
@[simp] theorem State.modSensor_cards (i : Fin 4) (g : Sensor → Sensor) : (s.modSensor i g).cards = s.cards := rfl
@[simp] theorem State.modSensor_book (i : Fin 4) (g : Sensor → Sensor) : (s.modSensor i g).book = s.book := rfl
@[simp] theorem State.modSensor_lines (i : Fin 4) (g : Sensor → Sensor) : (s.modSensor i g).lines = s.lines := rfl
@[simp] theorem State.modSensor_tenders (i : Fin 4) (g : Sensor → Sensor) : (s.modSensor i g).tenders = s.tenders := rfl
@[simp] theorem State.modSensor_engines (i : Fin 4) (g : Sensor → Sensor) : (s.modSensor i g).engines = s.engines := rfl
@[simp] theorem State.modSensor_ready (i : Fin 4) (g : Sensor → Sensor) : (s.modSensor i g).ready = s.ready := rfl
@[simp] theorem State.modSensor_bus (i : Fin 4) (g : Sensor → Sensor) : (s.modSensor i g).bus = s.bus := rfl
@[simp] theorem State.modSensor_loader (i : Fin 4) (g : Sensor → Sensor) : (s.modSensor i g).loader = s.loader := rfl
@[simp] theorem State.modSensor_choices (i : Fin 4) (g : Sensor → Sensor) : (s.modSensor i g).choices = s.choices := rfl
@[simp] theorem State.modSensor_pending (i : Fin 4) (g : Sensor → Sensor) : (s.modSensor i g).pending = s.pending := rfl

/-! ### claimBus -/

@[simp] theorem State.claimBus_part (c : Claim) : (s.claimBus c).part = s.part := rfl
@[simp] theorem State.claimBus_link (c : Claim) : (s.claimBus c).link = s.link := rfl
@[simp] theorem State.claimBus_params (c : Claim) : (s.claimBus c).params = s.params := rfl
@[simp] theorem State.claimBus_store (c : Claim) : (s.claimBus c).store = s.store := rfl
@[simp] theorem State.claimBus_cards (c : Claim) : (s.claimBus c).cards = s.cards := rfl
@[simp] theorem State.claimBus_book (c : Claim) : (s.claimBus c).book = s.book := rfl
@[simp] theorem State.claimBus_lines (c : Claim) : (s.claimBus c).lines = s.lines := rfl
@[simp] theorem State.claimBus_tenders (c : Claim) : (s.claimBus c).tenders = s.tenders := rfl
@[simp] theorem State.claimBus_engines (c : Claim) : (s.claimBus c).engines = s.engines := rfl
@[simp] theorem State.claimBus_ready (c : Claim) : (s.claimBus c).ready = s.ready := rfl
@[simp] theorem State.claimBus_thermal (c : Claim) : (s.claimBus c).thermal = s.thermal := rfl
@[simp] theorem State.claimBus_bus (c : Claim) : (s.claimBus c).bus = Bus.serve { s.bus with claims := s.bus.claims ++ [c] } := rfl
@[simp] theorem State.claimBus_loader (c : Claim) : (s.claimBus c).loader = s.loader := rfl
@[simp] theorem State.claimBus_choices (c : Claim) : (s.claimBus c).choices = s.choices := rfl
@[simp] theorem State.claimBus_pending (c : Claim) : (s.claimBus c).pending = s.pending := rfl

/-! ### endTransfer -/

@[simp] theorem State.endTransfer_part : s.endTransfer.part = s.part := rfl
@[simp] theorem State.endTransfer_link : s.endTransfer.link = s.link := rfl
@[simp] theorem State.endTransfer_params : s.endTransfer.params = s.params := rfl
@[simp] theorem State.endTransfer_store : s.endTransfer.store = s.store := rfl
@[simp] theorem State.endTransfer_cards : s.endTransfer.cards = s.cards := rfl
@[simp] theorem State.endTransfer_book : s.endTransfer.book = s.book := rfl
@[simp] theorem State.endTransfer_lines : s.endTransfer.lines = s.lines := rfl
@[simp] theorem State.endTransfer_tenders : s.endTransfer.tenders = s.tenders := rfl
@[simp] theorem State.endTransfer_engines : s.endTransfer.engines = s.engines := rfl
@[simp] theorem State.endTransfer_ready : s.endTransfer.ready = s.ready := rfl
@[simp] theorem State.endTransfer_thermal : s.endTransfer.thermal = s.thermal := rfl
@[simp] theorem State.endTransfer_bus : s.endTransfer.bus = { s.bus with current := none, writeLeft := none, ackWindow := none } := rfl
@[simp] theorem State.endTransfer_loader : s.endTransfer.loader = s.loader := rfl
@[simp] theorem State.endTransfer_choices : s.endTransfer.choices = s.choices := rfl
@[simp] theorem State.endTransfer_pending : s.endTransfer.pending = s.pending := rfl

/-! ### serveBus -/

@[simp] theorem State.serveBus_part : s.serveBus.part = s.part := rfl
@[simp] theorem State.serveBus_link : s.serveBus.link = s.link := rfl
@[simp] theorem State.serveBus_params : s.serveBus.params = s.params := rfl
@[simp] theorem State.serveBus_store : s.serveBus.store = s.store := rfl
@[simp] theorem State.serveBus_cards : s.serveBus.cards = s.cards := rfl
@[simp] theorem State.serveBus_book : s.serveBus.book = s.book := rfl
@[simp] theorem State.serveBus_lines : s.serveBus.lines = s.lines := rfl
@[simp] theorem State.serveBus_tenders : s.serveBus.tenders = s.tenders := rfl
@[simp] theorem State.serveBus_engines : s.serveBus.engines = s.engines := rfl
@[simp] theorem State.serveBus_ready : s.serveBus.ready = s.ready := rfl
@[simp] theorem State.serveBus_thermal : s.serveBus.thermal = s.thermal := rfl
@[simp] theorem State.serveBus_bus : s.serveBus.bus = s.bus.serve := rfl
@[simp] theorem State.serveBus_loader : s.serveBus.loader = s.loader := rfl
@[simp] theorem State.serveBus_choices : s.serveBus.choices = s.choices := rfl
@[simp] theorem State.serveBus_pending : s.serveBus.pending = s.pending := rfl

/-! ### withdrawPoll -/

@[simp] theorem State.withdrawPoll_part : s.withdrawPoll.part = s.part := rfl
@[simp] theorem State.withdrawPoll_link : s.withdrawPoll.link = s.link := rfl
@[simp] theorem State.withdrawPoll_params : s.withdrawPoll.params = s.params := rfl
@[simp] theorem State.withdrawPoll_store : s.withdrawPoll.store = s.store := rfl
@[simp] theorem State.withdrawPoll_cards : s.withdrawPoll.cards = s.cards := rfl
@[simp] theorem State.withdrawPoll_book : s.withdrawPoll.book = s.book := rfl
@[simp] theorem State.withdrawPoll_lines : s.withdrawPoll.lines = s.lines := rfl
@[simp] theorem State.withdrawPoll_tenders : s.withdrawPoll.tenders = s.tenders := rfl
@[simp] theorem State.withdrawPoll_engines : s.withdrawPoll.engines = s.engines := rfl
@[simp] theorem State.withdrawPoll_ready : s.withdrawPoll.ready = s.ready := rfl
@[simp] theorem State.withdrawPoll_thermal : s.withdrawPoll.thermal = s.thermal := rfl
@[simp] theorem State.withdrawPoll_loader : s.withdrawPoll.loader = s.loader := rfl
@[simp] theorem State.withdrawPoll_choices : s.withdrawPoll.choices = s.choices := rfl
@[simp] theorem State.withdrawPoll_pending : s.withdrawPoll.pending = s.pending := rfl

/-! ### setBusFault -/

@[simp] theorem State.setBusFault_part (f : BusFault) : (s.setBusFault f).part = s.part := rfl
@[simp] theorem State.setBusFault_link (f : BusFault) : (s.setBusFault f).link = s.link := rfl
@[simp] theorem State.setBusFault_params (f : BusFault) : (s.setBusFault f).params = s.params := rfl
@[simp] theorem State.setBusFault_store (f : BusFault) : (s.setBusFault f).store = s.store := rfl
@[simp] theorem State.setBusFault_cards (f : BusFault) : (s.setBusFault f).cards = s.cards := rfl
@[simp] theorem State.setBusFault_book (f : BusFault) : (s.setBusFault f).book = s.book := rfl
@[simp] theorem State.setBusFault_lines (f : BusFault) : (s.setBusFault f).lines = s.lines := rfl
@[simp] theorem State.setBusFault_tenders (f : BusFault) : (s.setBusFault f).tenders = s.tenders := rfl
@[simp] theorem State.setBusFault_engines (f : BusFault) : (s.setBusFault f).engines = s.engines := rfl
@[simp] theorem State.setBusFault_ready (f : BusFault) : (s.setBusFault f).ready = s.ready := rfl
@[simp] theorem State.setBusFault_thermal (f : BusFault) : (s.setBusFault f).thermal = s.thermal := rfl
@[simp] theorem State.setBusFault_bus (f : BusFault) : (s.setBusFault f).bus = { s.bus with lastFault := some f } := rfl
@[simp] theorem State.setBusFault_loader (f : BusFault) : (s.setBusFault f).loader = s.loader := rfl
@[simp] theorem State.setBusFault_choices (f : BusFault) : (s.setBusFault f).choices = s.choices := rfl
@[simp] theorem State.setBusFault_pending (f : BusFault) : (s.setBusFault f).pending = s.pending := rfl

/-! ### noteStuck -/

@[simp] theorem State.noteStuck_part : s.noteStuck.part = s.part := rfl
@[simp] theorem State.noteStuck_link : s.noteStuck.link = (s.setCondition .busStuck).link := rfl
@[simp] theorem State.noteStuck_params : s.noteStuck.params = s.params := rfl
@[simp] theorem State.noteStuck_store : s.noteStuck.store = s.store := rfl
@[simp] theorem State.noteStuck_cards : s.noteStuck.cards = s.cards := rfl
@[simp] theorem State.noteStuck_book : s.noteStuck.book = s.book := rfl
@[simp] theorem State.noteStuck_lines : s.noteStuck.lines = s.lines := rfl
@[simp] theorem State.noteStuck_tenders : s.noteStuck.tenders = s.tenders := rfl
@[simp] theorem State.noteStuck_engines : s.noteStuck.engines = s.engines := rfl
@[simp] theorem State.noteStuck_ready : s.noteStuck.ready = s.ready := rfl
@[simp] theorem State.noteStuck_thermal : s.noteStuck.thermal = s.thermal := rfl
@[simp] theorem State.noteStuck_bus : s.noteStuck.bus = { s.bus with lastFault := some .stuck } := rfl
@[simp] theorem State.noteStuck_loader : s.noteStuck.loader = s.loader := rfl
@[simp] theorem State.noteStuck_choices : s.noteStuck.choices = s.choices := rfl
@[simp] theorem State.noteStuck_pending : s.noteStuck.pending = s.pending := rfl

/-! ### stopStuck -/

@[simp] theorem State.stopStuck_part : s.stopStuck.part = s.part := rfl
@[simp] theorem State.stopStuck_link : s.stopStuck.link = s.link := rfl
@[simp] theorem State.stopStuck_params : s.stopStuck.params = s.params := rfl
@[simp] theorem State.stopStuck_store : s.stopStuck.store = s.store := rfl
@[simp] theorem State.stopStuck_cards : s.stopStuck.cards = s.cards := rfl
@[simp] theorem State.stopStuck_book : s.stopStuck.book = s.book := rfl
@[simp] theorem State.stopStuck_lines : s.stopStuck.lines = s.lines := rfl
@[simp] theorem State.stopStuck_tenders : s.stopStuck.tenders = s.tenders := rfl
@[simp] theorem State.stopStuck_engines : s.stopStuck.engines = s.engines := rfl
@[simp] theorem State.stopStuck_ready : s.stopStuck.ready = s.ready := rfl
@[simp] theorem State.stopStuck_thermal : s.stopStuck.thermal = { s.thermal with state := .stopped, stopCause := some .stuck, pollTimer := none } := rfl
@[simp] theorem State.stopStuck_bus : s.stopStuck.bus = s.withdrawPoll.bus := rfl
@[simp] theorem State.stopStuck_loader : s.stopStuck.loader = s.loader := rfl
@[simp] theorem State.stopStuck_choices : s.stopStuck.choices = s.choices := rfl
@[simp] theorem State.stopStuck_pending : s.stopStuck.pending = s.pending := rfl

/-! ### A scrub step that counts, and an engine that hears a frame -/

@[simp] theorem ScrubStep.count_page (b : Bool) (e : ReadErrors) (st : ScrubStep) : (st.count b e).page = st.page := rfl
@[simp] theorem ScrubStep.count_portions (b : Bool) (e : ReadErrors) (st : ScrubStep) : (st.count b e).portions = st.portions := rfl
@[simp] theorem ScrubStep.count_host (b : Bool) (e : ReadErrors) (st : ScrubStep) : (st.count b e).host = st.host := rfl
@[simp] theorem ScrubStep.count_left (b : Bool) (e : ReadErrors) (st : ScrubStep) : (st.count b e).left = st.left := rfl
@[simp] theorem ScrubStep.count_stops (b : Bool) (e : ReadErrors) (st : ScrubStep) :
    (st.count b e).stops = (st.stops || (b && decide (0 < e.uncorrectable))) := rfl
@[simp] theorem ScrubStep.count_none (b : Bool) (st : ScrubStep) : st.count b .none = st := by simp [ScrubStep.count, ReadErrors.none]

@[simp] theorem Engine.hear_link (f : RawFrame) (r : Engine) : (r.hear f).link = r.link := rfl
@[simp] theorem Engine.hear_sheets (f : RawFrame) (r : Engine) : (r.hear f).sheets = r.sheets := rfl
@[simp] theorem Engine.hear_nextTag (f : RawFrame) (r : Engine) : (r.hear f).nextTag = r.nextTag := rfl
@[simp] theorem Engine.hear_rxBuffer (f : RawFrame) (r : Engine) : (r.hear f).rxBuffer = r.rxBuffer := rfl
@[simp] theorem Engine.hear_view (f : RawFrame) (r : Engine) : (r.hear f).view = r.view := rfl

/-- The command that names the head of the receive buffer takes it. -/
theorem State.deliver_head {e : Fin 3} {f : RawFrame} {rest : List RawFrame} {s : State} (running : s.running = true)
    (link : (s.engine e).link ≠ .absent) (head : (s.engine e).rxBuffer = f :: rest) : s.deliver e f = s.takeHead e f rest := by
  simp [State.deliver, running, link, head]

end Sys2Proof.Machine
end

