-- ==== Sys2Proof/Laws/Requests.lean ====
section
/-! SUPPORT. How a request reaches its block, what the state at work shares with the one before, and what the bytes of a whole request
frame do. -/

namespace Sys2Proof.Machine

variable {i : Instr} {s : State}

/-- A request that reaches its block is taken in the state atWork. -/
theorem arrive_of_reaches (h : Reaches i s) : s.arrive i = .taken (s.atWork i) := by
  obtain ⟨hr, h⟩ := h
  unfold State.arrive State.atWork
  rw [hr]
  rcases h with ⟨hw, hh⟩ | ⟨hc, hf, hs, hl⟩
  · simp [hw, hh]
  · have hp : (s.beginFrame).part = s.part := State.beginFrame_part s
    rcases hf with hf | hf <;> rcases hs with hs | hs <;>
      first
      | (simp [hc, hf, hs, hl]; done)
      | simp [hc, hf, hs, Instr.lengthSuits]

/-- The work of a request that reaches its block is done there. -/
theorem request_of_reaches (h : Reaches i s) (w : State → State) : s.request i w = w (s.atWork i) := by
  unfold State.request
  rw [arrive_of_reaches h]

/-! ### The state at work -/

@[simp] theorem State.atWork_part (i : Instr) (s : State) : (s.atWork i).part = s.part := by
  unfold State.atWork; split <;> simp
@[simp] theorem State.atWork_params (i : Instr) (s : State) : (s.atWork i).params = s.params := by
  unfold State.atWork; split <;> simp
@[simp] theorem State.atWork_store (i : Instr) (s : State) : (s.atWork i).store = s.store := by
  unfold State.atWork; split <;> simp
@[simp] theorem State.atWork_cards (i : Instr) (s : State) : (s.atWork i).cards = s.cards := by
  unfold State.atWork; split <;> simp
@[simp] theorem State.atWork_book (i : Instr) (s : State) : (s.atWork i).book = s.book := by
  unfold State.atWork; split <;> simp
@[simp] theorem State.atWork_lines (i : Instr) (s : State) : (s.atWork i).lines = s.lines := by
  unfold State.atWork; split <;> simp
@[simp] theorem State.atWork_tenders (i : Instr) (s : State) : (s.atWork i).tenders = s.tenders := by
  unfold State.atWork; split <;> simp
@[simp] theorem State.atWork_engines (i : Instr) (s : State) : (s.atWork i).engines = s.engines := by
  unfold State.atWork; split <;> simp
@[simp] theorem State.atWork_ready (i : Instr) (s : State) : (s.atWork i).ready = s.ready := by
  unfold State.atWork; split <;> simp
@[simp] theorem State.atWork_thermal (i : Instr) (s : State) : (s.atWork i).thermal = s.thermal := by
  unfold State.atWork; split <;> simp
@[simp] theorem State.atWork_bus (i : Instr) (s : State) : (s.atWork i).bus = s.bus := by
  unfold State.atWork; split <;> simp
@[simp] theorem State.atWork_loader (i : Instr) (s : State) : (s.atWork i).loader = s.loader := by
  unfold State.atWork; split <;> simp
@[simp] theorem State.atWork_choices (i : Instr) (s : State) : (s.atWork i).choices = s.choices := by
  unfold State.atWork; split <;> simp
@[simp] theorem State.atWork_pending (i : Instr) (s : State) : (s.atWork i).pending = s.pending := by
  unfold State.atWork; split <;> simp

@[simp] theorem State.atWork_linkState (i : Instr) (s : State) : (s.atWork i).link.state = .working := by
  unfold State.atWork; split <;> rfl

@[simp] theorem State.atWork_handed (i : Instr) (s : State) : (s.atWork i).link.handed = none := by
  unfold State.atWork; split <;> rfl

@[simp] theorem State.atWork_working (i : Instr) (s : State) : (s.atWork i).link.working = some i := by
  unfold State.atWork; split <;> rfl

@[simp] theorem State.atWork_selected (i : Instr) (s : State) : (s.atWork i).link.selected = s.link.selected := by
  unfold State.atWork State.beginFrame State.restartEffect State.shiftFiller; split
  · rfl
  · split <;> rfl

@[simp] theorem State.atWork_conditions (i : Instr) (s : State) : (s.atWork i).link.conditions = s.link.conditions := by
  unfold State.atWork State.beginFrame State.restartEffect State.shiftFiller; split
  · rfl
  · split <;> rfl

@[simp] theorem State.atWork_sdo (i : Instr) (s : State) :
    (s.atWork i).link.sdo = if s.link.state = .working then s.link.sdo else 0xFF := by
  unfold State.atWork; split <;> rfl

/-- The change flags of the state at work. -/
@[simp] theorem State.atWork_flags (i : Instr) (s : State) : (s.atWork i).link.flags = s.flagsAtWork := by
  unfold State.atWork State.flagsAtWork State.beginFrame State.restartEffect
  by_cases h : s.link.state = .working
  · simp [h, State.takeHanded]
  · by_cases hd : s.link.restartDue = true
    · simp [h, hd, State.takeHanded, State.shiftFiller]
    · simp [h, hd, State.takeHanded, State.shiftFiller]

/-- Every lookup sees the same tables at work. -/
@[simp] theorem State.atWork_frame (i : Instr) (s : State) (n : Nat) : (s.atWork i).frame n = s.frame n := by
  unfold State.frame; rw [State.atWork_store]

@[simp] theorem State.atWork_order (i : Instr) (s : State) (n : Nat) : (s.atWork i).order n = s.order n := by
  unfold State.order; rw [State.atWork_book]

@[simp] theorem State.atWork_tender (i : Instr) (s : State) (n : Nat) : (s.atWork i).tender n = s.tender n := by
  unfold State.tender; rw [State.atWork_tenders]

@[simp] theorem State.atWork_slot (i : Instr) (s : State) (k : Fin 8) : (s.atWork i).slot k = s.slot k := by
  unfold State.slot; rw [State.atWork_cards]

@[simp] theorem State.atWork_line (i : Instr) (s : State) (k : Fin 4) : (s.atWork i).line k = s.line k := by
  unfold State.line; rw [State.atWork_lines]

@[simp] theorem State.atWork_engine (i : Instr) (s : State) (k : Fin 3) : (s.atWork i).engine k = s.engine k := by
  unfold State.engine; rw [State.atWork_engines]

/-- A response made ready is held. -/
theorem answered_respond (s : State) (x : Status) (p : List Byte) : Answered x p (s.respond x p) := ⟨rfl, rfl, rfl, rfl, rfl⟩

/-! ### A request frame clocked byte by byte -/

/-- The link in RECEIVING after a byte of a frame that is neither too long nor complete: the byte is in the buffer. -/
def State.buffered (bytes : List Byte) (s : State) : State := { s with link := { s.link with sdo := 0xFF, buffer := bytes } }

/-- A byte that neither shows a length above 600 nor completes the frame joins the buffer. -/
theorem State.clockByte_joins {s : State} {b : Byte} (hr : s.link.state = .receiving) (ho : s.link.overlong = false)
    (hl : ((frameLength (s.link.buffer ++ [b])).any fun n => decide (Config.maxPayload < n)) = false)
    (hc : frameComplete (s.link.buffer ++ [b]) = false) : s.clockByte b = s.buffered (s.link.buffer ++ [b]) := by
  simp [State.clockByte, State.shiftOut, hr, State.takeByte, State.shiftFiller, ho, hl, hc, State.buffered]

/-- Bytes of which none shows a length above 600 nor completes the frame join the buffer. -/
theorem State.clockBytes_joins {s : State} (l : List Byte) (hr : s.link.state = .receiving) (ho : s.link.overlong = false)
    (hs : s.link.sdo = 0xFF)
    (h : ∀ q, q ≠ [] → q <+: l → ((frameLength (s.link.buffer ++ q)).any fun n => decide (Config.maxPayload < n)) = false ∧
      frameComplete (s.link.buffer ++ q) = false) : s.clockBytes l = s.buffered (s.link.buffer ++ l) := by
  induction l generalizing s with
  | nil =>
    obtain ⟨part, link⟩ := s
    simp [State.clockBytes, State.buffered] at hs ⊢
    rw [← hs]
  | cons b rest ih =>
    have hb := h [b] (by simp) (by simp)
    have e := State.clockByte_joins hr ho hb.1 hb.2
    show (s.clockByte b).clockBytes rest = _
    rw [e, ih (s := s.buffered (s.link.buffer ++ [b])) hr ho rfl]
    · simp [State.buffered]
    · intro q hq hp
      have := h (b :: q) (by simp) (by simpa using hp)
      simpa [State.buffered] using this

/-- The two bytes of a word, most significant first, read back as the word. -/
theorem toWord16_word2 (w : Word16) : toWord16 (BitVec.ofNat 8 (w.toNat / 256)) (w.setWidth 8) = w := by
  rw [← BitVec.ofNat_toNat]
  apply BitVec.eq_of_toNat_eq
  have h := w.isLt
  simp only [toWord16, BitVec.toNat_append, BitVec.toNat_ofNat]
  rw [Nat.mod_eq_of_lt (by omega : w.toNat / 256 < 2 ^ 8)]
  have := Nat.shiftLeft_add_eq_or_of_lt (b := w.toNat % 2 ^ 8) (i := 8) (by omega) (w.toNat / 256)
  omega

/-- The bytes of a frame are judged by its code, length, payload and CRC. -/
theorem State.judgeFrame_frame (code : Byte) (length crc : Word16) (payload : List Byte) (s : State) :
    s.judgeFrame (frameBytes code length payload crc) =
      { s with link := { s.link with buffer := [] } }.judgeRequest code length payload crc := by
  simp [frameBytes, word2, byte2, State.judgeFrame, toWord16_word2]

/-- The payload length in a prefix of a frame's bytes. -/
theorem frameLength_prefix {code : Byte} {length crc : Word16} {payload q : List Byte} (hp : q <+: frameBytes code length payload crc) :
    frameLength q = if q.length < 3 then none else some length.toNat := by
  obtain ⟨t, ht⟩ := hp
  match q with
  | [] => rfl
  | [a] => rfl
  | [a, b] => rfl
  | a :: b :: c :: q =>
    simp only [frameBytes, word2, byte2, List.cons_append, List.nil_append, List.cons.injEq] at ht
    obtain ⟨-, rfl, rfl, -⟩ := ht
    show some (toWord16 _ _).toNat = _
    rw [BitVec.ofNat_toNat, toWord16_word2]
    simp

theorem frameBytes_length (code : Byte) (length crc : Word16) (payload : List Byte) :
    (frameBytes code length payload crc).length = payload.length + 5 := by
  simp [frameBytes, word2, byte2]

/-- A whole frame whose length field is its payload's, clocked into a link that has begun a frame, is judged, and 0xFF is shifted out last
(R175, R176, R178). -/
theorem State.clockBytes_frame {s : State} {code : Byte} {length crc : Word16} {payload : List Byte}
    (hr : s.link.state = .receiving) (ho : s.link.overlong = false) (hb : s.link.buffer = [])
    (hn : length.toNat = payload.length) (hm : payload.length ≤ 600) :
    s.clockBytes (frameBytes code length payload crc) = s.shiftFiller.judgeRequest code length payload crc := by
  have first : ∀ b, s.clockByte b = s.shiftFiller.clockByte b := fun b => by simp [State.clockByte, State.shiftOut, hr, State.shiftFiller]
  have hl := frameBytes_length code length crc payload
  have any : ∀ q, q <+: frameBytes code length payload crc →
      ((frameLength q).any fun n => decide (Config.maxPayload < n)) = false := fun q hq => by
    rw [frameLength_prefix hq]; split
    · rfl
    · rw [Option.any_some, hn]
      exact decide_eq_false (Nat.not_lt.mpr hm)
  have complete : ∀ q, q <+: frameBytes code length payload crc → q.length < payload.length + 5 → frameComplete q = false :=
    fun q hq hlt => by
      unfold frameComplete
      rw [frameLength_prefix hq]
      split
      · next h => split at h <;> simp at h; subst h; simp; omega
      · rfl
  obtain ⟨init, last, e⟩ : ∃ init last, frameBytes code length payload crc = init ++ [last] :=
    ⟨code :: (word2 length ++ payload ++ [BitVec.ofNat 8 (crc.toNat / 256)]), BitVec.ofNat 8 crc.toNat, by simp [frameBytes, word2, byte2]⟩
  have hi : init.length = payload.length + 4 := by rw [e] at hl; simpa using hl
  have hp : init <+: frameBytes code length payload crc := ⟨[last], e.symm⟩
  have step : s.clockBytes init = s.shiftFiller.buffered init := by
    cases init with
    | nil => simp at hi
    | cons b rest =>
      show (s.clockByte b).clockBytes rest = _
      rw [first]
      show s.shiftFiller.clockBytes (b :: rest) = _
      have h := State.clockBytes_joins (s := s.shiftFiller) (b :: rest) hr ho rfl fun q _ hq => by
        simp only [State.shiftFiller_link, hb, List.nil_append]
        exact ⟨any q (hq.trans hp), complete q (hq.trans hp) (by have := hq.length_le; omega)⟩
      rw [h]; simp [hb]
  have whole := frameLength_prefix (List.prefix_refl (frameBytes code length payload crc))
  have append : s.clockBytes (init ++ [last]) = (s.clockBytes init).clockByte last := by
    simp [State.clockBytes, List.foldl_append]
  have done : frameComplete (frameBytes code length payload crc) = true := by
    unfold frameComplete; rw [whole, if_neg (by omega)]; simp [hl, hn]
  rw [e, append, step]
  simp [State.clockByte, State.buffered, State.shiftOut, hr, State.takeByte, State.shiftFiller, ho, ← e, any _ (List.prefix_refl _), done]
  rw [State.judgeFrame_frame, hb]
end Sys2Proof.Machine
end

