-- ==== Sys2Proof/Laws/Money.lean ====
section
/-! SUPPORT. What each shared operation of orders, payment lines and tenders leaves alone: one lemma for each, MoneyCalm.<its name>
(LineCalm.applyMode for the one that changes a line's mode). -/

namespace Sys2Proof.Machine

section
variable {r s : State}

theorem MoneyCalm.ite {c : Prop} [Decidable c] {x y : State} (hx : c → MoneyCalm r x) (hy : ¬ c → MoneyCalm r y) :
    MoneyCalm r (if c then x else y) := by
  split
  · exact hx ‹_›
  · exact hy ‹_›

/-! ### TXD -/

/-- TXD goes on as it was when the messages are given up. -/
@[simp] theorem PayLine.txd_emptyQueue (p : PayLine) : p.emptyQueue.txd = p.txd := by
  unfold PayLine.emptyQueue PayLine.txd
  cases p.txChar <;> rfl

@[simp] theorem PayLine.txd_clearReceive (p : PayLine) : p.clearReceive.txd = p.txd := rfl

/-- A character is a low start bit, the data bits, a parity bit where the mode has one, and the stop bits. -/
theorem LineMode.charLevels_length (m : LineMode) (b : Byte) :
    (m.charLevels b).length = 1 + m.dataBits + (m.parityBit b).toList.length + m.stopBits := by
  unfold LineMode.charLevels LineMode.bits
  simp only [List.length_cons, List.length_append, List.length_map, List.length_range, List.length_replicate]
  omega

/-! ### Records -/

theorem MoneyCalm.setOrder {n : Nat} {o : Order} (h : MoneyCalm r s) : MoneyCalm r (s.setOrder n o) :=
  MoneyCalm.setFlagIf (h.withBook _ Ascending.put)

theorem MoneyCalm.modOrder {n : Nat} {g : Order → Order} (h : MoneyCalm r s) : MoneyCalm r (s.modOrder n g) := by
  unfold State.modOrder; split
  · exact h
  · exact h.setOrder

theorem MoneyCalm.setTender {t : Nat} {q : Tender} (h : MoneyCalm r s) : MoneyCalm r (s.setTender t q) :=
  MoneyCalm.setFlagIf (h.withTenders _ Ascending.put)

theorem MoneyCalm.modTender {t : Nat} {g : Tender → Tender} (h : MoneyCalm r s) : MoneyCalm r (s.modTender t g) := by
  unfold State.modTender; split
  · exact h
  · exact h.setTender

theorem MoneyCalm.setExchangeQueue {i : Fin 4} {q : List Nat} (h : MoneyCalm r s) : MoneyCalm r (s.setExchangeQueue i q) :=
  h.withTenders _ id

theorem MoneyCalm.setInService {i : Fin 4} {b : Bool} (h : MoneyCalm r s) : MoneyCalm r (s.setInService i b) := h.withTenders _ id

/-! ### Reports that change an order alone -/

theorem MoneyCalm.mismatch {n : Nat} (h : MoneyCalm r s) : MoneyCalm r (s.mismatch n) := h.setCondition.setFlag

theorem MoneyCalm.reportTo {n : Nat} {g : Order → Option Order} (h : MoneyCalm r s) : MoneyCalm r (s.reportTo n g) := by
  unfold State.reportTo; split
  · exact h.mismatch
  · split
    · exact h.mismatch
    · exact h.setOrder.setFlag

theorem MoneyCalm.reportDeclined {n : Nat} {c : TenderOutcome} (h : MoneyCalm r s) : MoneyCalm r (s.reportDeclined n c) := h.reportTo

theorem MoneyCalm.reportVoided {n : Nat} (h : MoneyCalm r s) : MoneyCalm r (s.reportVoided n) := h.reportTo

theorem MoneyCalm.reportCaptured {n a : Nat} (h : MoneyCalm r s) : MoneyCalm r (s.reportCaptured n a) := h.reportTo

theorem MoneyCalm.reportUnresolved {n : Nat} (h : MoneyCalm r s) : MoneyCalm r (s.reportUnresolved n) := h.reportTo

theorem MoneyCalm.reportWrittenOff {n : Nat} (h : MoneyCalm r s) : MoneyCalm r (s.reportWrittenOff n) := h.reportTo

theorem MoneyCalm.reportShort {n a : Nat} (h : MoneyCalm r s) : MoneyCalm r (s.reportShort n a) := h.reportTo

/-! ### Tenders and exchanges -/

theorem MoneyCalm.joinTail {t : Nat} {q : Tender} (h : MoneyCalm r s) : MoneyCalm r (s.joinTail t q) := h.setTender.setExchangeQueue

theorem MoneyCalm.joinHead {t : Nat} {q : Tender} (h : MoneyCalm r s) : MoneyCalm r (s.joinHead t q) := h.setTender.setExchangeQueue

theorem MoneyCalm.freeTender {t : Nat} (h : MoneyCalm r s) : MoneyCalm r (s.freeTender t) := by
  unfold State.freeTender; split
  · exact h
  · exact MoneyCalm.setFlag (MoneyCalm.setExchangeQueue (h.withTenders _ Ascending.erase))

theorem MoneyCalm.declineTender {t : Nat} {c : TenderOutcome} (h : MoneyCalm r s) : MoneyCalm r (s.declineTender t c) := by
  unfold State.declineTender; split
  · exact h
  · exact h.freeTender.reportDeclined

theorem MoneyCalm.voidTender {t : Nat} (h : MoneyCalm r s) : MoneyCalm r (s.voidTender t) := by
  unfold State.voidTender; split
  · exact h
  · exact MoneyCalm.reportVoided (MoneyCalm.ite (fun _ => h.setTender.freeTender) fun _ => h.setTender)

theorem MoneyCalm.leaveUnresolved {t : Nat} (h : MoneyCalm r s) : MoneyCalm r (s.leaveUnresolved t) := by
  unfold State.leaveUnresolved; split
  · exact h
  · exact h.setTender.reportUnresolved

theorem MoneyCalm.awaitReply {t : Nat} {q : Tender} (h : MoneyCalm r s) : MoneyCalm r (s.awaitReply t q) := h.setTender.setFlag

theorem setup_beginDue (p : PayLine) : p.beginDue.setup = p.setup := by
  unfold PayLine.beginDue; split
  · split <;> rfl
  · rfl

theorem setup_hand (m : OutMessage) (p : PayLine) : (p.hand m).1.setup = p.setup := by
  unfold PayLine.hand; dsimp only; split
  · rfl
  · split
    · rfl
    · exact setup_beginDue _

theorem setup_noteReply (q : Reply) (p : PayLine) : (PayLine.noteReply q p).setup = p.setup := by
  cases q <;> rfl

theorem MoneyCalm.drive {fuel : Nat} {w : Work} (h : MoneyCalm r s) : MoneyCalm r (s.drive fuel w) := by
  induction fuel generalizing s w with
  | zero => exact h
  | succ n ih =>
    cases w with
    | hand t k =>
      unfold State.drive; split
      · exact h
      · dsimp only
        split
        · exact h.setTender.setLineRec (setup_hand _ _)
        · exact h.setTender.setLineRec (setup_hand _ _)
        · exact ih (h.setTender.setLineRec (setup_hand _ _))
        · exact ih (h.setTender.setLineRec (setup_hand _ _))
    | unanswered t =>
      unfold State.drive; split
      · exact h
      · split
        · dsimp only
          split
          · exact ih h.setTender
          · exact ih h.setTender.leaveUnresolved
        · split
          · exact ih h.setTender
          · exact ih h.declineTender
        · exact ih h.setTender
        · exact ih h.setTender
        · exact ih h.setTender
    | next i =>
      unfold State.drive; split
      · split
        · exact h
        · dsimp only
          split
          · exact ih h.setExchangeQueue
          · exact ih h.setExchangeQueue.setTender
      · exact h

theorem MoneyCalm.carry {w : Work} (h : MoneyCalm r s) : MoneyCalm r (s.carry w) := h.drive

theorem MoneyCalm.beginEnquiry {t : Nat} (h : MoneyCalm r s) : MoneyCalm r (s.beginEnquiry t) := by
  unfold State.beginEnquiry; split
  · exact h
  · exact h.setTender.carry

theorem MoneyCalm.messageSent {i : Fin 4} {m : OutMessage} (h : MoneyCalm r s) : MoneyCalm r (s.messageSent i m) := by
  unfold State.messageSent; split
  · exact h
  · split
    · split
      · exact h.awaitReply
      · split
        · exact h.setTender
        · exact h
    · exact h

theorem MoneyCalm.messageNotSent {i : Fin 4} {c : NotSent} {g : GivenUp} (h : MoneyCalm r s) :
    MoneyCalm r (s.messageNotSent i c g) := by
  unfold State.messageNotSent; split
  · exact h
  · split
    · dsimp only
      split
      · exact h.setTender.carry
      · exact h.setTender
    · exact h

theorem MoneyCalm.messagesNotSent {i : Fin 4} {c : NotSent} {l : List GivenUp} (h : MoneyCalm r s) :
    MoneyCalm r (s.messagesNotSent i c l) := foldl_keeps (fun _ _ k => k.messageNotSent) l h

theorem MoneyCalm.placeLost {t : Nat} {q : Tender} (h : MoneyCalm r s) : MoneyCalm r (s.placeLost t q) := by
  unfold State.placeLost; dsimp only; split
  · split
    · exact h.joinHead
    · exact h.joinHead
  · split
    · exact h.joinHead
    · exact h.declineTender
  · split
    · exact h.joinHead
    · exact h.joinHead
  · split
    · exact h.joinHead
    · exact h.joinHead
  · exact h.joinHead

theorem MoneyCalm.lineLost {i : Fin 4} (h : MoneyCalm r s) : MoneyCalm r (s.lineLost i) := by
  unfold State.lineLost; dsimp only; split
  · exact h.setInService
  · split
    · exact h.setInService
    · exact h.setInService.placeLost

theorem MoneyCalm.takeUp {t : Nat} (h : MoneyCalm r s) : MoneyCalm r (s.takeUp t) := by
  unfold State.takeUp; split
  · exact h
  · exact h.joinTail

theorem MoneyCalm.lineUp {i : Fin 4} (h : MoneyCalm r s) : MoneyCalm r (s.lineUp i) := by
  unfold State.lineUp; dsimp only
  exact MoneyCalm.carry (forEach_keeps (P := MoneyCalm r) (fun _ _ k => k.takeUp) _ h.setInService)

theorem MoneyCalm.createSale {t n : Nat} {st : Fin 4} {c a : Nat} (h : MoneyCalm r s) : MoneyCalm r (s.createSale t n st c a) :=
  h.joinTail.carry

theorem MoneyCalm.withdrawTender {t : Nat} (h : MoneyCalm r s) : MoneyCalm r (s.withdrawTender t) := by
  unfold State.withdrawTender; split
  · exact h
  · dsimp only
    split
    · split
      · exact h.setTender.declineTender.carry
      · exact h.setTender.setTender.carry
      · split
        · exact h.setTender.setTender
        · exact h.setTender
      · exact h.setTender
    · exact h.setTender

theorem MoneyCalm.queueAfresh {t : Nat} {q : Tender} {k : OutKind} (h : MoneyCalm r s) : MoneyCalm r (s.queueAfresh t q k) :=
  h.joinTail.carry

theorem MoneyCalm.captureTender {t a : Nat} (h : MoneyCalm r s) : MoneyCalm r (s.captureTender t a) := by
  unfold State.captureTender; split
  · exact h.setCondition
  · split
    · exact h.queueAfresh
    · exact h.setCondition

theorem MoneyCalm.requestVoid {t : Nat} (h : MoneyCalm r s) : MoneyCalm r (s.requestVoid t) := by
  unfold State.requestVoid; split
  · exact h.setCondition
  · split
    · exact h
    · split
      · exact h.queueAfresh
      · exact h.setCondition

theorem MoneyCalm.reportLost {i : Fin 4} {cause : LineLoss} (h : MoneyCalm r s) : MoneyCalm r (s.reportLost i cause) :=
  MoneyCalm.lineLost (h.modLine fun _ => rfl)

theorem MoneyCalm.leaveUp {i : Fin 4} {cause : LineLoss} (h : MoneyCalm r s) : MoneyCalm r (s.leaveUp i cause) := by
  unfold State.leaveUp; dsimp only
  exact MoneyCalm.reportLost (MoneyCalm.modLine (MoneyCalm.messagesNotSent (MoneyCalm.modLine h fun _ => rfl)) fun _ => rfl)

theorem LineCalm.applyMode {i : Fin 4} {m : LineMode} {b : Bool} (h : LineCalm r s) : LineCalm r (s.applyMode i m b) := by
  unfold State.applyMode; dsimp only
  have h1 : LineCalm r
      (if (s.line i).state = .up then (s.modLine i fun q => { q with state := .down }).leaveUp i (if b then .mode else .down) else s) := by
    split
    · exact h.modLine.money (MoneyCalm.leaveUp (.refl _))
    · exact h
  split
  · exact h1.modLine.money (MoneyCalm.lineUp (.refl _))
  · exact h1.modLine

/-! ### Orders in printing -/

theorem MoneyCalm.insertPair {p : Nat × Nat} (h : MoneyCalm r s) : MoneyCalm r (s.insertPair p) := by
  unfold State.insertPair; split
  · exact h
  · exact h.withReady _

theorem MoneyCalm.removePair {p : Nat × Nat} (h : MoneyCalm r s) : MoneyCalm r (s.removePair p) := h.withReady _

theorem MoneyCalm.removePairs {n : Nat} (h : MoneyCalm r s) : MoneyCalm r (s.removePairs n) := h.withReady _

theorem MoneyCalm.setPrintingLine {n : Nat} {o : Order} {l : OrderLine} (h : MoneyCalm r s) :
    MoneyCalm r (s.setPrintingLine n o l) := by
  unfold State.setPrintingLine; dsimp only; split
  · exact h.setOrder.removePair
  · exact h.setOrder.insertPair

theorem MoneyCalm.settle {n : Nat} (h : MoneyCalm r s) : MoneyCalm r (s.settle n) := by
  unfold State.settle; split
  · exact h
  · split
    · split
      · exact h.setOrder.removePairs
      · dsimp only
        split
        · exact h.setOrder.removePairs.captureTender
        · exact h.setOrder.removePairs.requestVoid
    · exact h

theorem MoneyCalm.renumber (h : MoneyCalm r s) : MoneyCalm r s.renumber := by
  unfold State.renumber; dsimp only
  exact MoneyCalm.withBook (forEach_keeps (P := MoneyCalm r) (fun _ _ k => k.modOrder) _ h) _ id

theorem MoneyCalm.raiseAdmission (h : MoneyCalm r s) : MoneyCalm r s.raiseAdmission := by
  unfold State.raiseAdmission; dsimp only
  exact MoneyCalm.withBook (MoneyCalm.ite (fun _ => h.renumber) fun _ => h) _ id

theorem MoneyCalm.enterPrinting {n : Nat} (h : MoneyCalm r s) : MoneyCalm r (s.enterPrinting n) := by
  unfold State.enterPrinting; dsimp only; split
  · exact h.raiseAdmission
  · exact MoneyCalm.settle (forEach_keeps (P := MoneyCalm r) (fun _ _ k => k.insertPair) _ h.raiseAdmission.setOrder)

theorem MoneyCalm.reportApproved {n a : Nat} (h : MoneyCalm r s) : MoneyCalm r (s.reportApproved n a) := by
  unfold State.reportApproved; split
  · exact h.mismatch
  · split
    · dsimp only
      split
      · split
        · exact h.setOrder.setFlag.requestVoid
        · exact h.setOrder.setFlag.setCondition
      · exact h.setOrder.setFlag.enterPrinting
    all_goals exact h.mismatch

theorem MoneyCalm.startClaim {n k : Nat} {t : State} (h : MoneyCalm r s) (ht : s.startClaim n k = some t) : MoneyCalm r t := by
  unfold State.startClaim at ht; split at ht
  · cases ht
  · split at ht
    · cases ht
    · split at ht
      · cases ht
        exact h.setPrintingLine
      · cases ht

theorem MoneyCalm.reportDone {n k : Nat} (h : MoneyCalm r s) : MoneyCalm r (s.reportDone n k) := by
  unfold State.reportDone; split
  · exact h.mismatch
  · split
    · exact h.mismatch
    · split
      · exact h.setPrintingLine.settle
      · exact h.mismatch

theorem MoneyCalm.reportFault {n k : Nat} {c : SheetCause} (h : MoneyCalm r s) : MoneyCalm r (s.reportFault n k c) := by
  unfold State.reportFault; split
  · exact h.mismatch
  · split
    · exact h.mismatch
    · split
      · exact h.setPrintingLine.settle
      · exact h.mismatch

theorem MoneyCalm.stopLines {f n : Nat} (h : MoneyCalm r s) : MoneyCalm r (s.stopLines f n) := by
  unfold State.stopLines; split
  · exact h
  · exact forEach_keeps (P := MoneyCalm r) (fun _ _ k => k.removePair) _ h.setOrder

/-! ### Replies -/

theorem MoneyCalm.takeApproval {t : Nat} {q : Tender} {a : Nat} {l : List Byte} (h : MoneyCalm r s) :
    MoneyCalm r (s.takeApproval t q a l) := by
  unfold State.takeApproval; dsimp only
  split
  · split
    · exact h.queueAfresh.reportShort
    · exact h.setTender.carry.reportShort
  · split
    · exact h.queueAfresh.reportApproved
    · exact h.setTender.carry.reportApproved

theorem MoneyCalm.endDeclined {t : Nat} {q : Tender} {c : TenderOutcome} (h : MoneyCalm r s) : MoneyCalm r (s.endDeclined t q c) :=
  h.declineTender.carry

theorem MoneyCalm.endVoided {t : Nat} {q : Tender} (h : MoneyCalm r s) : MoneyCalm r (s.endVoided t q) := h.voidTender.carry

theorem MoneyCalm.endCaptured {t : Nat} {q : Tender} (h : MoneyCalm r s) : MoneyCalm r (s.endCaptured t q) :=
  h.setTender.reportCaptured.carry

theorem MoneyCalm.endUnresolved {t : Nat} {q : Tender} (h : MoneyCalm r s) : MoneyCalm r (s.endUnresolved t q) :=
  h.leaveUnresolved.carry

theorem MoneyCalm.endMismatched {t : Nat} {q : Tender} {a : Nat} (h : MoneyCalm r s) : MoneyCalm r (s.endMismatched t q a) :=
  h.setTender.setCondition.endUnresolved

theorem MoneyCalm.replyBusy {t : Nat} {q : Tender} (h : MoneyCalm r s) : MoneyCalm r (s.replyBusy t q) := by
  unfold State.replyBusy; split
  · dsimp only
    split
    · exact h.joinTail.carry
    · exact h.setTender.endDeclined
  all_goals exact h.endDeclined

theorem MoneyCalm.replyDeclined {t : Nat} {q : Tender} (h : MoneyCalm r s) : MoneyCalm r (s.replyDeclined t q) := by
  unfold State.replyDeclined; split
  · exact h.endDeclined
  · exact h.endDeclined
  all_goals exact h.beginEnquiry

theorem MoneyCalm.replyCaptured {t : Nat} {q : Tender} {a : Nat} (h : MoneyCalm r s) : MoneyCalm r (s.replyCaptured t q a) := by
  unfold State.replyCaptured; split
  · exact h.endCaptured
  · exact h.beginEnquiry

theorem MoneyCalm.answerNoMoney {t : Nat} {q : Tender} {x : NoMoney} (h : MoneyCalm r s) : MoneyCalm r (s.answerNoMoney t q x) := by
  unfold State.answerNoMoney; split
  · exact h.endDeclined
  · exact h.endVoided
  · exact h.endVoided
  · exact h.endDeclined

theorem MoneyCalm.answerPending {t : Nat} {q : Tender} (h : MoneyCalm r s) : MoneyCalm r (s.answerPending t q) := by
  unfold State.answerPending; split
  · split
    · exact h.awaitReply
    · exact h.setTender.carry
  · split
    · exact h.setTender.carry
    · exact h.endUnresolved
  all_goals exact h.carry

theorem MoneyCalm.answerApproved {t : Nat} {q : Tender} {a : Nat} {l : List Byte} (h : MoneyCalm r s) :
    MoneyCalm r (s.answerApproved t q a l) := by
  have h1 : ∀ {q : Tender} {l : List Byte}, MoneyCalm r
      (if a = q.amountApproved then
        let p := { q with reference := some l, enquiryCount := q.enquiryCount + 1 }
        if p.enquiryCount < Config.enquiryLimit then
          (s.joinTail t { p with purpose := q.pendingPurpose.getD .enquire, pendingPurpose := none }).carry (.next q.line)
        else (s.setTender t p).endUnresolved t p
      else s.endMismatched t q a) := fun {_ _} =>
    MoneyCalm.ite (fun _ => MoneyCalm.ite (fun _ => h.joinTail.carry) fun _ => h.setTender.endUnresolved)
      fun _ => h.endMismatched
  unfold State.answerApproved; split
  · exact h1
  · exact h1
  all_goals exact h.takeApproval

theorem MoneyCalm.answerCaptured {t : Nat} {q : Tender} {a : Nat} (h : MoneyCalm r s) : MoneyCalm r (s.answerCaptured t q a) := by
  unfold State.answerCaptured; split
  · exact h.endCaptured
  · exact h.endMismatched

theorem MoneyCalm.applyReply {t : Nat} {q : Tender} {x : Reply} (h : MoneyCalm r s) : MoneyCalm r (s.applyReply t q x) := by
  unfold State.applyReply; split
  · exact h.takeApproval
  · exact h.replyDeclined
  · exact h.endDeclined
  · exact h.endDeclined
  · exact h.replyCaptured
  · exact h.endVoided
  · exact h.replyBusy
  · exact h.answerNoMoney
  · exact h.answerPending
  · exact h.answerApproved
  · exact h.answerCaptured

theorem MoneyCalm.takeReply {i : Fin 4} {t : Nat} {x : Reply} (h : MoneyCalm r s) : MoneyCalm r (s.takeReply i t x) := by
  unfold State.takeReply; dsimp only; split
  · exact MoneyCalm.modLine (MoneyCalm.modLine h fun _ => rfl) fun _ => rfl
  · exact MoneyCalm.applyReply (MoneyCalm.setTender (MoneyCalm.modLine (MoneyCalm.modLine h fun _ => rfl) (setup_noteReply _)))

theorem MoneyCalm.whenever {c : Bool} {f : State → State} (h : MoneyCalm r s) (hf : c = true → MoneyCalm r (f s)) :
    MoneyCalm r (s.whenever c f) := by
  unfold State.whenever
  exact MoneyCalm.ite hf fun _ => h

theorem MoneyCalm.reply {i : Fin 4} {t : Fin 32} {x : Reply} (h : MoneyCalm r s) : MoneyCalm r (s.reply i t x) :=
  h.whenever fun _ => h.takeReply

theorem MoneyCalm.replyOverdue {t : Nat} {q : Tender} (h : MoneyCalm r s) : MoneyCalm r (s.replyOverdue t q) := h.setTender.carry

/-! ### Line events -/

theorem MoneyCalm.dsrQualified {i : Fin 4} (h : MoneyCalm r s) : MoneyCalm r (s.dsrQualified i) := by
  unfold State.dsrQualified; dsimp only; split
  · exact MoneyCalm.lineUp (MoneyCalm.modLine (MoneyCalm.modLine h fun _ => rfl) fun _ => rfl)
  · split
    · exact MoneyCalm.leaveUp (MoneyCalm.modLine (MoneyCalm.modLine h fun _ => rfl) fun _ => rfl)
    · exact h.modLine fun _ => rfl

theorem MoneyCalm.breakLine {i : Fin 4} (h : MoneyCalm r s) : MoneyCalm r (s.breakLine i) := by
  unfold State.breakLine; dsimp only; split
  · exact MoneyCalm.leaveUp (MoneyCalm.modLine h fun _ => rfl)
  · exact h.modLine fun _ => rfl

theorem MoneyCalm.endBreak {i : Fin 4} (h : MoneyCalm r s) : MoneyCalm r (s.endBreak i) := by
  unfold State.endBreak; split
  · exact MoneyCalm.lineUp (MoneyCalm.modLine h fun _ => rfl)
  · exact h.modLine fun _ => rfl

theorem MoneyCalm.ownCharEnds {i : Fin 4} (h : MoneyCalm r s) : MoneyCalm r (s.ownCharEnds i) := by
  unfold State.ownCharEnds; split
  · exact h.modLine fun _ => rfl
  · dsimp only
    split
    · exact h.modLine fun _ => setup_beginDue _
    · exact MoneyCalm.messageSent (MoneyCalm.modLine h fun _ => setup_beginDue _)

theorem MoneyCalm.ctsExpired {i : Fin 4} (h : MoneyCalm r s) : MoneyCalm r (s.ctsExpired i) := by
  unfold State.ctsExpired; dsimp only
  exact MoneyCalm.messagesNotSent (MoneyCalm.modLine h fun _ => rfl)

end

end Sys2Proof.Machine
end

