-- ==== Sys2Proof/Laws/Sheets.lean ====
section
/-! SUPPORT. What each shared operation of the raster channels, the arbiters, the sheet links, the bus and the Thermal Watch leaves
alone: SheetCalm.<its name> where no Engine record changes its setup, and Calm.<its name> otherwise. -/

namespace Sys2Proof.Machine

section
variable {r s : State}

theorem SheetCalm.ite {c : Prop} [Decidable c] {x y : State} (hx : c → SheetCalm r x) (hy : ¬ c → SheetCalm r y) :
    SheetCalm r (if c then x else y) := by
  split
  · exact hx ‹_›
  · exact hy ‹_›

theorem Calm.ite {c : Prop} [Decidable c] {x y : State} (hx : c → Calm r x) (hy : ¬ c → Calm r y) :
    Calm r (if c then x else y) := by
  split
  · exact hx ‹_›
  · exact hy ‹_›

theorem Calm.store {t : State} (h : Calm r s) (k : StoreCalm s t) : Calm r t := h.trans k.toCalm

theorem Calm.money {t : State} (h : Calm r s) (k : MoneyCalm s t) : Calm r t := h.trans k.toCalm

theorem Calm.card {t : State} (h : Calm r s) (k : CardCalm s t) : Calm r t := h.trans k.toCalm

theorem Calm.line {t : State} (h : Calm r s) (k : LineCalm s t) : Calm r t := h.trans k.toCalm

theorem SheetCalm.grantAll (h : SheetCalm r s) : SheetCalm r s.grantAll := h.card (.grantAll (.refl _))

theorem Calm.grantAll (h : Calm r s) : Calm r s.grantAll := h.card (.grantAll (.refl _))

theorem SheetCalm.forEachFreely {α : Type} {l : List α} {f : α → State → State} (hf : ∀ a t, SheetCalm r t → SheetCalm r (f a t))
    (h : SheetCalm r s) : SheetCalm r (s.forEachFreely l f) :=
  forEachFreely_keeps (P := SheetCalm r) hf (fun _ _ k => k.withChoices _) l h

theorem SheetCalm.takeDamage {f : Nat} (h : SheetCalm r s) : SheetCalm r (s.takeDamage f) := by
  unfold State.takeDamage; dsimp only
  refine SheetCalm.forEachFreely (fun _ _ k => k.money (MoneyCalm.settle (.refl _))) ?_
  exact forEach_keeps (P := SheetCalm r) (fun _ _ k => k.money (MoneyCalm.stopLines (.refl _))) _ h

/-! ### Engine records -/

theorem Engine.setup_handAbort (tag : Word16) (q : Engine) : (q.handAbort tag).setup = q.setup := by
  unfold Engine.handAbort; split <;> rfl

theorem Engine.setup_handHello (q : Engine) : q.handHello.setup = q.setup := by
  unfold Engine.handHello; split
  · rfl
  · split <;> rfl

theorem Engine.setup_grant (c : Candidate) (b : Bool) (q : Engine) : (q.grant c b).setup = q.setup := by
  unfold Engine.grant; split <;> rfl

/-! ### Raster channels -/

theorem SheetCalm.askRaster {e : Fin 3} (h : SheetCalm r s) : SheetCalm r (s.askRaster e).1 := by
  unfold State.askRaster; dsimp only; split
  · split
    · exact h.store (StoreCalm.askPort (.refl _))
    · split
      · exact h
      · split
        · exact h
        · exact (h.store (StoreCalm.raiseReader (.refl _))).modChannel.store (StoreCalm.askPort (.refl _))
  · exact h

theorem SheetCalm.handFrame {e : Fin 3} (h : SheetCalm r s) : SheetCalm r (s.handFrame e).1 := by
  unfold State.handFrame; dsimp only; split
  · split
    · split
      · exact h.setEngineRec rfl
      · split
        · split
          · split
            · exact h.setEngineRec rfl
            · dsimp only
              exact SheetCalm.modChannel (h.setEngineRec rfl)
          · exact h.setEngineRec rfl
        · exact h
    · exact h
  · exact h

theorem SheetCalm.pump {e : Fin 3} (h : SheetCalm r s) : SheetCalm r (s.pump e).1 := by
  unfold State.pump; dsimp only; split
  · exact h.handFrame
  · exact h.handFrame.askRaster

theorem SheetCalm.beginSheet {e : Fin 3} {x : Sheet} (h : SheetCalm r s) : SheetCalm r (s.beginSheet e x).1 := by
  unfold State.beginSheet; split
  · split
    · exact SheetCalm.pump (SheetCalm.modEngine (h.store (StoreCalm.raisePin (.refl _))) fun _ => rfl)
    · exact h
  · exact h

theorem SheetCalm.unwindChannel {e : Fin 3} (h : SheetCalm r s) : SheetCalm r (s.unwindChannel e) := by
  unfold State.unwindChannel; dsimp only; split
  · split
    · exact (SheetCalm.modChannel (h.store (StoreCalm.lowerReader (.refl _)))).store (StoreCalm.lowerPin (.refl _))
    · exact h.modChannel.store (StoreCalm.lowerPin (.refl _))
  · exact h

theorem SheetCalm.stopChannel {e : Fin 3} (h : SheetCalm r s) : SheetCalm r (s.stopChannel e) :=
  SheetCalm.unwindChannel (SheetCalm.modEngine (h.store (StoreCalm.withdrawWaiting (.refl _))) fun _ => rfl)

theorem SheetCalm.reportOutcome {x : Sheet} {o : SheetOutcome} (h : SheetCalm r s) : SheetCalm r (s.reportOutcome x o) := by
  unfold State.reportOutcome; split
  · exact h.money (MoneyCalm.reportDone (.refl _))
  · exact h.money (MoneyCalm.reportFault (.refl _))

theorem SheetCalm.closeSheet {e : Fin 3} {tag : Word16} {o : SheetOutcome} (h : SheetCalm r s) :
    SheetCalm r (s.closeSheet e tag o) := by
  unfold State.closeSheet; split
  · exact h
  · dsimp only
    refine SheetCalm.reportOutcome (SheetCalm.ite (fun _ => SheetCalm.ite (fun _ => ?_) fun _ => ?_) fun _ => ?_)
    · exact SheetCalm.stopChannel (h.modEngine fun _ => rfl)
    · exact SheetCalm.modChannel (h.modEngine fun _ => rfl)
    · exact h.modEngine fun _ => rfl

/-! ### Arbitration -/

theorem SheetCalm.startSheet {e : Fin 3} {c : Candidate} {b : Bool} (h : SheetCalm r s) : SheetCalm r (s.startSheet e c b).1 := by
  unfold State.startSheet; dsimp only
  have h1 := h.modEngine (e := e)
    (g := fun q => { (q.grant c b) with nextTag := q.nextTag + 1, sheets := q.sheets ++ [s.newSheet e c] })
    fun q => Engine.setup_grant c b q
  split
  · exact h1.beginSheet
  · dsimp only
    exact SheetCalm.modChannel h1

theorem SheetCalm.runArbiter {fuel : Nat} {e : Fin 3} (h : SheetCalm r s) : SheetCalm r (s.runArbiter fuel e) := by
  induction fuel generalizing s with
  | zero => exact h
  | succ n ih =>
    unfold State.runArbiter; split
    · split
      · exact h
      · split
        · exact ih h
        · next ht =>
          dsimp only
          have h1 := h.money (MoneyCalm.startClaim (.refl _) ht)
          split
          · exact ih h1.startSheet.closeSheet
          · exact h1.startSheet
    · exact h

theorem SheetCalm.dispatch (h : SheetCalm r s) : SheetCalm r s.dispatch := SheetCalm.forEachFreely (fun _ _ k => k.runArbiter) h

theorem hungry_eq_nil (h : ∀ e, (s.engine e).eligible = false) : s.hungry = [] := by
  simp [State.hungry, h]

/-- Dispatch does nothing where no engine is eligible. -/
theorem dispatch_eq_self (h : ∀ e, (s.engine e).eligible = false) : s.dispatch = s := by
  unfold State.dispatch
  rw [hungry_eq_nil h]
  rfl

theorem eligible_of_link {q : Engine} (h : q.link ≠ .online) : q.eligible = false := by
  simp [Engine.eligible, h]

theorem SheetCalm.endSheet {e : Fin 3} {tag : Word16} {o : SheetOutcome} (h : SheetCalm r s) : SheetCalm r (s.endSheet e tag o) :=
  h.closeSheet.dispatch

theorem SheetCalm.endSheets {e : Fin 3} {tags : List Word16} {o : SheetOutcome} (h : SheetCalm r s) :
    SheetCalm r (s.endSheets e tags o) := foldl_keeps (P := SheetCalm r) (fun _ _ k => k.endSheet) tags h

theorem SheetCalm.storeErrorEnd {e : Fin 3} (h : SheetCalm r s) : SheetCalm r (s.storeErrorEnd e) := by
  unfold State.storeErrorEnd; split
  · exact h
  · exact SheetCalm.endSheet (h.modEngine fun _ => Engine.setup_handAbort _ _)

theorem SheetCalm.runChannel {e : Fin 3} (h : SheetCalm r s) : SheetCalm r (s.runChannel e) := by
  unfold State.runChannel; dsimp only; split
  · exact h.pump.storeErrorEnd
  · exact h.pump

theorem SheetCalm.beginWaiting {e : Fin 3} (h : SheetCalm r s) : SheetCalm r (s.beginWaiting e) := by
  unfold State.beginWaiting; dsimp only; split
  · split
    · exact h.modChannel
    · split
      · exact h.modChannel.beginSheet.endSheet
      · exact h.modChannel.beginSheet
  · exact h

theorem SheetCalm.cutSheet {e : Fin 3} {tag : Word16} (h : SheetCalm r s) : SheetCalm r (s.cutSheet e tag) := by
  unfold State.cutSheet; split
  · exact h
  · split
    · exact SheetCalm.endSheet (h.modEngine fun _ => Engine.setup_handAbort _ _)
    · split
      · exact h
      · exact h.modEngine fun _ => Engine.setup_handAbort _ _
    · exact h

theorem SheetCalm.cutoff {e : Fin 3} (h : SheetCalm r s) : SheetCalm r (s.cutoff e) := by
  unfold State.cutoff; split
  · exact foldl_keeps (P := SheetCalm r) (fun _ _ k => k.cutSheet) _ h
  · exact h

theorem SheetCalm.sheetEndSent {e : Fin 3} {tag : Word16} (h : SheetCalm r s) : SheetCalm r (s.sheetEndSent e tag) := by
  unfold State.sheetEndSent; dsimp only; split
  · refine SheetCalm.dispatch (SheetCalm.store ?_ (StoreCalm.lowerPin (.refl _)))
    exact h.modEngine fun _ => rfl
  · exact h

theorem SheetCalm.beginNext {e : Fin 3} (h : SheetCalm r s) : SheetCalm r (s.beginNext e) := by
  unfold State.beginNext; dsimp only; split
  · exact h.modEngine fun _ => rfl
  · split
    · exact SheetCalm.runChannel (h.modEngine fun _ => rfl)
    · exact h.modEngine fun _ => rfl
  · exact h.modEngine fun _ => rfl

theorem SheetCalm.frameBoundary {e : Fin 3} (h : SheetCalm r s) : SheetCalm r (s.frameBoundary e) := by
  unfold State.frameBoundary; split
  · exact h.sheetEndSent.beginNext
  · exact h.beginNext

theorem SheetCalm.burstTaken {e : Fin 3} {p : Page} {l : List Byte} (h : SheetCalm r s) : SheetCalm r (s.burstTaken e p l) := by
  unfold State.burstTaken; dsimp only
  refine SheetCalm.runChannel (SheetCalm.modChannel (SheetCalm.ite (fun _ => ?_) fun _ => h))
  exact h.store (StoreCalm.lowerReader (.refl _))

theorem SheetCalm.rasterComplete {e : Fin 3} {p : Page} {a n : Nat} {x : ReadErrors} (h : SheetCalm r s) :
    SheetCalm r (s.rasterComplete e p a n x) := by
  have h1 : SheetCalm r (s.applyErrors p x) := h.store (StoreCalm.applyErrors (.refl _))
  unfold State.rasterComplete; dsimp only; split
  · exact h1.unwindChannel.beginWaiting
  · split
    · exact h1.storeErrorEnd
    · exact h1.burstTaken
  all_goals exact h1

/-! ### Link states and frames -/

theorem Calm.leaveOnline {e : Fin 3} {c : LinkLoss} (h : Calm r s) : Calm r (s.leaveOnline e c) := by
  unfold State.leaveOnline; dsimp only
  refine Calm.sheet (Calm.modEngine ?_) (SheetCalm.dispatch (.refl _))
  split
  · exact h.modEngine
  · exact h.modEngine.sheet (SheetCalm.closeSheet (.refl _))

theorem Calm.receiveFault {e : Fin 3} (h : Calm r s) : Calm r (s.receiveFault e) := by
  unfold State.receiveFault; dsimp only; split
  · exact h.modEngine.leaveOnline
  · exact h.modEngine

theorem Calm.presenceQualified {e : Fin 3} (h : Calm r s) : Calm r (s.presenceQualified e) := by
  unfold State.presenceQualified; dsimp only; split
  · exact h.modEngine.modEngine
  · exact h.modEngine.modEngine
  · exact h.modEngine.leaveOnline
  · exact h.modEngine

theorem SheetCalm.reconcile {e : Fin 3} {c : SheetState} {a b tag : Word16} (h : SheetCalm r s) :
    SheetCalm r (s.reconcile e c a b tag) := by
  unfold State.reconcile; dsimp only; split
  · exact h.endSheets.endSheets
  · exact SheetCalm.endSheets (h.modEngine fun _ => rfl)

theorem Calm.dispatch (h : Calm r s) : Calm r s.dispatch := h.sheet (SheetCalm.dispatch (.refl _))

theorem Calm.readyInHunting {e : Fin 3} {f : Facts} (h : Calm r s) : Calm r (s.readyInHunting e f) := by
  unfold State.readyInHunting; dsimp only
  exact Calm.dispatch (Calm.modEngine (Calm.modEngine (h.modEngine.sheet (SheetCalm.reconcile (.refl _)))))

theorem Calm.readyInOnline {e : Fin 3} {f : Facts} (h : Calm r s) : Calm r (s.readyInOnline e f) := by
  unfold State.readyInOnline; dsimp only
  refine Calm.dispatch (Calm.modEngine (Calm.sheet ?_ (SheetCalm.reconcile (.refl _))))
  split
  · exact h
  · exact h.modEngine.sheet (SheetCalm.endSheet (.refl _))

theorem Calm.statusInOnline {e : Fin 3} {f : Facts} (h : Calm r s) : Calm r (s.statusInOnline e f) := by
  unfold State.statusInOnline; dsimp only; split
  · refine Calm.dispatch (Calm.sheet ?_ (SheetCalm.endSheets (.refl _)))
    split
    · exact h.modEngine
    · exact h.modEngine.modEngine
  · exact h.modEngine.modEngine.dispatch

theorem Calm.takeDone {e : Fin 3} {tag : Word16} (h : Calm r s) : Calm r (s.takeDone e tag) := by
  unfold State.takeDone; split
  · exact h.modEngine
  · split
    · exact h.modEngine
    · exact h.sheet (SheetCalm.endSheet (.refl _))

theorem Calm.takeFault {e : Fin 3} {tag : Word16} {c : SheetCause} (h : Calm r s) : Calm r (s.takeFault e tag c) := by
  unfold State.takeFault; split
  · exact h.modEngine
  · exact h.sheet (SheetCalm.endSheet (.refl _))

theorem Calm.actFrame {e : Fin 3} {f : EngineFrame} (h : Calm r s) : Calm r (s.actFrame e f) := by
  unfold State.actFrame; split
  · exact h.readyInHunting
  · exact h.readyInOnline
  · exact h.statusInOnline
  · exact h.takeDone
  · exact h.takeFault
  · exact h

theorem Calm.takeFrame {e : Fin 3} {f : RawFrame} (h : Calm r s) : Calm r (s.takeFrame e f) := by
  unfold State.takeFrame; dsimp only; split
  · exact h.modEngine.modEngine
  · exact h.modEngine.actFrame

theorem Calm.takeHead {e : Fin 3} {f : RawFrame} {l : List RawFrame} (h : Calm r s) : Calm r (s.takeHead e f l) := h.modEngine.takeFrame

theorem Calm.deliver {e : Fin 3} {f : RawFrame} (h : Calm r s) : Calm r (s.deliver e f) := by
  unfold State.deliver; dsimp only; split
  · exact h
  · split
    · split
      · exact h.takeHead
      · exact h
    · exact h.modEngine.takeFrame

theorem Calm.frameArrives {e : Fin 3} {f : RawFrame} (h : Calm r s) : Calm r (s.frameArrives e f) := by
  unfold State.frameArrives; split
  · exact h.modEngine
  · exact h.receiveFault

/-! ### The bus and the Thermal Watch -/

theorem Calm.claimBus {c : Claim} (h : Calm r s) : Calm r (s.claimBus c) := h.withBus _

theorem Calm.serveBus (h : Calm r s) : Calm r s.serveBus := h.withBus _

theorem Calm.endTransfer (h : Calm r s) : Calm r s.endTransfer := h.withBus _

theorem Calm.withdrawPoll (h : Calm r s) : Calm r s.withdrawPoll := h.withBus _

theorem Calm.setBusFault {f : BusFault} (h : Calm r s) : Calm r (s.setBusFault f) := h.withBus _

theorem Calm.modSensor {i : Fin 4} {g : Sensor → Sensor} (h : Calm r s) : Calm r (s.modSensor i g) := h.withThermal _

theorem Calm.noteStuck (h : Calm r s) : Calm r s.noteStuck := h.setCondition.setBusFault

theorem Calm.pollStuck (h : Calm r s) : Calm r s.pollStuck := Calm.withdrawPoll (h.noteStuck.withThermal _)

theorem Calm.busStuck (h : Calm r s) : Calm r s.busStuck := by
  unfold State.busStuck; split
  · exact h.noteStuck
  · exact h.pollStuck

theorem Calm.busFailure {x : BusResult} (h : Calm r s) : Calm r (s.busFailure x) := by
  unfold State.busFailure; split
  · exact h
  · exact h.setBusFault
  · exact h.busStuck

theorem Calm.makePoll (h : Calm r s) : Calm r s.makePoll := by
  unfold State.makePoll; split
  · exact h
  · split
    · exact h
    · exact Calm.claimBus (h.withThermal _)

theorem Calm.startPolling (h : Calm r s) : Calm r s.startPolling := Calm.makePoll (h.withThermal _)

theorem Calm.startPollTimer (h : Calm r s) : Calm r s.startPollTimer := by
  unfold State.startPollTimer; split
  · exact h.withThermal _
  · exact h

theorem Calm.evaluateHold {e : Fin 3} (h : Calm r s) : Calm r (s.evaluateHold e) := h.modEngine.dispatch.modEngine.dispatch

theorem Calm.evaluateHolds (h : Calm r s) : Calm r s.evaluateHolds := h.evaluateHold.evaluateHold.evaluateHold

theorem Calm.takeReading {i : Fin 4} {t : Int} (h : Calm r s) : Calm r (s.takeReading i t) := by
  unfold State.takeReading; dsimp only; split
  · split
    · exact h.modSensor.evaluateHolds.sheet (SheetCalm.cutoff (.refl _))
    · exact h.modSensor.evaluateHolds
  · exact h.modSensor.evaluateHolds

theorem Calm.remaskSensor {old : Nat} {i : Fin 4} (h : Calm r s) : Calm r (s.remaskSensor old i) := by
  unfold State.remaskSensor; split
  · exact h
  · split
    · exact h.modSensor.withBus _
    · exact h.modSensor

theorem Calm.remaskPoller {old : Nat} (h : Calm r s) : Calm r (s.remaskPoller old) := by
  unfold State.remaskPoller; split
  · dsimp only
    split
    · exact Calm.withdrawPoll (h.withThermal _)
    · exact Calm.withThermal (Calm.withdrawPoll (h.withThermal _)) _
  · split
    · exact h.startPolling
    · exact h

theorem Calm.remask {old : Nat} (h : Calm r s) : Calm r (s.remask old) :=
  Calm.remaskPoller (Calm.evaluateHolds (foldl_keeps (P := Calm r) (fun _ _ k => k.remaskSensor) _ h))

theorem Calm.discardPoll (h : Calm r s) : Calm r s.discardPoll := by
  unfold State.discardPoll; split
  · exact h
  · exact h.startPollTimer

theorem Calm.pollUnanswered {i : Fin 4} (h : Calm r s) : Calm r (s.pollUnanswered i) := h.setCondition.withThermal _

theorem Calm.pollEnds {i : Fin 4} {v : Bool} {x : BusResult} {b : Byte} (h : Calm r s) : Calm r (s.pollEnds i v x b) := by
  unfold State.pollEnds; split
  · split
    · exact h.discardPoll
    · exact h.takeReading.startPollTimer
  · dsimp only
    split
    · exact h.setBusFault.discardPoll
    · exact h.setBusFault.pollUnanswered
  · exact h.pollStuck

theorem Calm.passStaleLimit {i : Fin 4} (h : Calm r s) : Calm r (s.passStaleLimit i) := h.modSensor.evaluateHolds

theorem Calm.clearBusError (h : Calm r s) : Calm r s.clearBusError := by
  unfold State.clearBusError; split
  · split
    · exact h.withThermal _
    · exact h.startPolling
  · exact h

theorem Calm.beginPolling (h : Calm r s) : Calm r s.beginPolling := by
  unfold State.beginPolling; split
  · exact h
  · exact h.startPolling

theorem Calm.sampleInputs (h : Calm r s) : Calm r s.sampleInputs := by
  unfold State.sampleInputs; dsimp only
  refine forEach_keeps (P := Calm r) (fun _ _ k => k.modEngine) _ ?_
  exact forEach_keeps (P := Calm r) (fun _ _ k => k.card (CardCalm.detectSlot (.refl _))) _ h

theorem StoreCalm.startPatrol (h : StoreCalm r s) : StoreCalm r s.startPatrol := by
  unfold State.startPatrol; split
  · exact h.withStore _ rfl id
  · exact StoreCalm.startScrubTimer (h.withStore _ rfl id)

theorem StoreCalm.formPools (h : StoreCalm r s) : StoreCalm r s.formPools := by
  unfold State.formPools; dsimp only
  exact StoreCalm.judgeLow (h.withStore _ rfl id)

theorem StoreCalm.abandonScrub (h : StoreCalm r s) : StoreCalm r s.abandonScrub := by
  unfold State.abandonScrub; dsimp only
  refine StoreCalm.startScrubTimer (StoreCalm.withStore ?_ _ rfl id)
  split
  · exact h.stopOnErrors
  · exact h

theorem StoreCalm.dropCounts (h : StoreCalm r s) : StoreCalm r s.dropCounts :=
  h.withStore _ rfl fun k => by
    refine Ascending.mapEntries ?_ k
    intro e
    rfl

theorem StoreCalm.retireAllRetiring (h : StoreCalm r s) : StoreCalm r s.retireAllRetiring := h.withStore _ rfl id

theorem SheetCalm.resetStore (h : SheetCalm r s) : SheetCalm r s.resetStore := by
  unfold State.resetStore; dsimp only
  refine SheetCalm.store ?_ (StoreCalm.abandonScrub (.refl _))
  refine SheetCalm.forEachFreely (fun _ _ k => k.store (StoreCalm.retireTest (.refl _))) ?_
  refine SheetCalm.forEachFreely (fun _ _ k => k.store (StoreCalm.returnTest (.refl _))) ?_
  refine SheetCalm.forEachFreely (fun _ _ k => k.store (StoreCalm.damageFrame (.refl _))) ?_
  exact h.store (StoreCalm.dropCounts (StoreCalm.retireAllRetiring (StoreCalm.abandonMigration
    (StoreCalm.withStore (.refl _) _ rfl id))))

theorem MoneyCalm.resetBook (h : MoneyCalm r s) : MoneyCalm r s.resetBook :=
  forEach_keeps (P := MoneyCalm r) (fun _ _ k => k.modOrder) _ h

theorem MoneyCalm.resetTenders (h : MoneyCalm r s) : MoneyCalm r s.resetTenders :=
  forEach_keeps (P := MoneyCalm r) (fun _ _ k => k.lineLost) _ h

theorem SheetCalm.failStreaming {e : Fin 3} (h : SheetCalm r s) : SheetCalm r (s.failStreaming e) := by
  unfold State.failStreaming; split
  · exact h
  · exact h.closeSheet

end

end Sys2Proof.Machine
end

