-- ==== Sys2Proof/Laws/Kept.lean ====
section
/-! SUPPORT. The canonical forms and the parameter ranges that every step keeps, and the end of start-up, which no step but POWER_ON takes
back: one relation, kept by each piece of a meaning. Kept.<its name> says of a shared operation or of a request's work that it keeps
them. -/

namespace Sys2Proof.Machine

/-- Each parameter lies in the range of the parameter table (section 9.5.1). -/
def ParamsInRange (s : State) : Prop := ∀ p, p < 18 → paramAdmits p (s.params.get p) = true

/-- What the part keeps from one state to the next. -/
structure Kept (s t : State) : Prop where
  mem : MemorySound s → MemorySound t
  flags : FlagsSound s → FlagsSound t
  tables : TablesSound s → TablesSound t
  params : ParamsInRange s → ParamsInRange t
  started : s.part.started = true → t.part.started = true

theorem Kept.refl (s) : Kept s s := ⟨id, id, id, id, id⟩

theorem Kept.trans {r s t} (h : Kept r s) (k : Kept s t) : Kept r t :=
  ⟨fun x => k.mem (h.mem x), fun x => k.flags (h.flags x), fun x => k.tables (h.tables x), fun x => k.params (h.params x),
    fun x => k.started (h.started x)⟩

theorem Kept.calm {r s t} (h : Kept r s) (k : Calm s t) : Kept r t :=
  h.trans ⟨fun x => by unfold MemorySound; rw [k.mem]; exact x, k.flagsSound, k.tablesSound, fun x => by unfold ParamsInRange; rw [k.params]; exact x,
    fun x => by rw [k.part]; exact x⟩

theorem Kept.store {r s t} (h : Kept r s) (k : StoreCalm s t) : Kept r t := h.calm k.toCalm

theorem Kept.card {r s t} (h : Kept r s) (k : CardCalm s t) : Kept r t := h.calm k.toCalm

theorem Kept.line {r s t} (h : Kept r s) (k : LineCalm s t) : Kept r t := h.calm k.toCalm

theorem Kept.money {r s t} (h : Kept r s) (k : MoneyCalm s t) : Kept r t := h.calm k.toCalm

theorem Kept.sheet {r s t} (h : Kept r s) (k : SheetCalm s t) : Kept r t := h.calm k.toCalm

section
variable {r s : State}
/-- any link change that keeps flags sound -/

theorem Kept.link (h : Kept r s) (l : OrderLink) (hl : FlagsSound s → l.flags.Pairwise (· < ·)) : Kept r { s with link := l } :=
  h.trans ⟨id, hl, id, id, id⟩

theorem Kept.respond (h : Kept r s) {x p} : Kept r (s.respond x p) := h.link _ id

theorem Kept.refuse (h : Kept r s) {x} : Kept r (s.refuse x) := h.link _ id

theorem allFlags_sound : allFlags.Pairwise (· < ·) := by
  unfold allFlags; generalize flagCount = n; exact List.pairwise_lt_range

theorem Kept.setAll (h : Kept r s) : Kept r s.setAllFlags :=
  h.trans ⟨id, fun _ => by unfold FlagsSound; rw [State.setAllFlags_link]; exact allFlags_sound, id, id, id⟩

theorem Kept.restartEffect (h : Kept r s) : Kept r s.restartEffect := by
  unfold State.restartEffect; split
  · exact h.link _ fun _ => allFlags_sound
  · exact h

theorem Kept.beginFrame (h : Kept r s) : Kept r s.beginFrame := Kept.restartEffect (h.link _ id)

theorem Kept.takeHanded (h : Kept r s) {i} : Kept r (s.takeHanded i) := h.link _ id

theorem Kept.setCondition (h : Kept r s) {c} : Kept r (s.setCondition c) := h.calm (calm_setCondition _ _)

theorem Kept.setFlag (h : Kept r s) {c} : Kept r (s.setFlag c) := h.calm (calm_setFlag _ _)

theorem Kept.grantAll (h : Kept r s) : Kept r s.grantAll := h.card (.grantAll (.refl _))

theorem Kept.dispatch (h : Kept r s) : Kept r s.dispatch := h.sheet (.dispatch (.refl _))

theorem Kept.endAccess (h : Kept r s) : Kept r s.endAccess := h.store (.endAccess (.refl _))

theorem Kept.ite {c : Prop} [Decidable c] {x y : State} (hx : c → Kept r x) (hy : ¬ c → Kept r y) : Kept r (if c then x else y) := by
  split
  · exact hx ‹_›
  · exact hy ‹_›

theorem Kept.whenever (h : Kept r s) {c : Bool} {f : State → State} (hf : c = true → Kept r (f s)) : Kept r (s.whenever c f) :=
  Kept.ite hf fun _ => h

theorem Kept.shiftFiller (h : Kept r s) : Kept r s.shiftFiller := h.link _ id

/-- What a request command meets at the link keeps the forms, whether its block takes the request or not. -/
theorem Kept.arrive (h : Kept r s) {i} : match s.arrive i with
    | .taken t => Kept r t
    | .turned t => Kept r t := by
  have hb : Kept r s.beginFrame.shiftFiller := h.beginFrame.shiftFiller
  unfold State.arrive
  by_cases h1 : s.part.inReset = true
  · simp only [h1, if_true]; exact h
  · simp only [h1]
    by_cases h2 : s.link.state = .working ∧ s.link.handed = some i
    · simp only [h2, and_self, if_true]; exact h.takeHanded
    · simp only [h2, if_false]
      by_cases hc : s.link.selected = false
      · simp only [hc, if_true]; exact h
      · simp only [hc]
        by_cases h3 : s.part.started = false ∧ i ≠ .identifyPart
        · cases s.link.state <;> simp [h3] <;>
            first | exact h | exact h.shiftFiller.setCondition | exact hb.refuse
        · by_cases h4 : i.lengthSuits = false
          · cases s.link.state <;> simp [h3, h4] <;>
              first | exact h | exact h.shiftFiller.setCondition | exact hb.refuse
          · cases s.link.state <;> simp [h3, h4] <;>
              first | exact h | exact h.shiftFiller.setCondition | exact hb.takeHanded

theorem Kept.request (h : Kept r s) {i} {w : State → State} (hw : ∀ t, Kept r t → Kept r (w t)) : Kept r (s.request i w) := by
  have k := h.arrive (i := i)
  unfold State.request
  cases he : s.arrive i with
  | taken t => rw [he] at k; exact hw _ k
  | turned t => rw [he] at k; exact k

theorem Kept.withOrder (h : Kept r s) {o} {w : Nat → Order → State → State} (hw : ∀ n o, Kept r (w n o s)) : Kept r (s.withOrder o w) := by
  unfold State.withOrder; dsimp only; split
  · exact h.refuse
  · split
    · exact h.refuse
    · exact hw _ _

theorem Kept.withTender (h : Kept r s) {o} {w : Nat → Tender → State → State} (hw : ∀ n o, Kept r (w n o s)) : Kept r (s.withTender o w) := by
  unfold State.withTender; dsimp only; split
  · exact h.refuse
  · split
    · exact h.refuse
    · exact hw _ _

theorem Kept.withMem (h : Kept r s) (st : Store) (hm : Memory.wf s.store.mem = true → Memory.wf st.mem = true) (hf : Ascending s.store.frames → Ascending st.frames) : Kept r { s with store := st } :=
  h.trans ⟨hm, id, fun k => ⟨hf k.1, k.2⟩, id, id⟩

theorem Kept.keep (h : Kept r s) {t : State} (hm : t.store = s.store) (hl : t.link.flags = s.link.flags) (hp : t.params = s.params) (hb : t.book.orders = s.book.orders) (ht : t.tenders.tenders = s.tenders.tenders)
    (hs : s.part.started = true → t.part.started = true) : Kept r t :=
  h.trans ⟨fun k => by unfold MemorySound; rw [hm]; exact k, fun k => by unfold FlagsSound; rw [hl]; exact k,
    fun k => by unfold TablesSound; rw [hm, hb, ht]; exact k, fun k => by unfold ParamsInRange; rw [hp]; exact k, hs⟩

/-! requests of each family (bodies) -/

theorem Kept.createFrame (h : Kept r s) {n} : Kept r (s.createFrame n) := by
  unfold State.createFrame; dsimp only; split
  · exact h.refuse
  · split
    · exact h.refuse
    · exact (h.store (.createFrameAt (.refl _))).respond

theorem Kept.writeFrameData (h : Kept r s) {a b c} : Kept r (s.writeFrameData a b c) := by
  unfold State.writeFrameData; repeat' split
  any_goals with_reducible exact h.refuse
  exact h.store (.askPort (.refl _))

theorem Kept.completeHostFrame (h : Kept r s) {n f} : Kept r (s.completeHostFrame n f) := (h.store (.setFrame (.refl _))).respond

theorem Kept.sealFrame (h : Kept r s) {a} : Kept r (s.sealFrame a) := by
  unfold State.sealFrame; repeat' split
  any_goals with_reducible exact h.refuse
  · exact completeHostFrame h
  · exact h.store (.askPort (.refl _))

theorem Kept.readFrameData (h : Kept r s) {a b c} : Kept r (s.readFrameData a b c) := by
  unfold State.readFrameData; repeat' split
  any_goals with_reducible exact h.refuse
  exact h.store (.askPort (.refl _))

theorem Kept.writeFrame (h : Kept r s) {f x d} : Kept r (s.writeFrame f x d) :=
  h.withMem _ (fun k => Memory.wf_writeFrameBytes k) id

theorem Kept.copyBytes (h : Kept r s) {p t x n} : Kept r (s.copyBytes p t x n) := h.withMem _ (fun k => Memory.wf_writeBytes k) id

theorem Kept.hostWriteComplete (h : Kept r s) {n d} : Kept r (s.hostWriteComplete n d) := by
  unfold State.hostWriteComplete State.storeHostWrite; split
  · exact h
  · exact Kept.respond (Kept.store (Kept.store h.writeFrame (.setFrame (.refl _))) (.settleFrame (.refl _)))

theorem Kept.sealWriteComplete (h : Kept r s) {n} : Kept r (s.sealWriteComplete n) := by
  unfold State.sealWriteComplete; split
  · exact h
  · exact completeHostFrame h.writeFrame

theorem Kept.hostReadComplete (h : Kept r s) {n o c a b} : Kept r (s.hostReadComplete n o c a b) := by
  unfold State.hostReadComplete; split
  · exact h
  · have h1 {l} : Kept r ((s.applyReads l).settleFrame n) := (h.store (.applyReads (.refl _))).store (.settleFrame (.refl _))
    exact Kept.ite (fun _ => h1.refuse) fun _ => h1.respond

theorem Kept.releaseFrame (h : Kept r s) {n} : Kept r (s.releaseFrame n) := by
  unfold State.releaseFrame; dsimp only; repeat' split
  · exact h.refuse
  · exact h.respond
  · exact ((h.store (.setFrame (.refl _))).card (.releaseByState (.refl _))).respond

theorem Kept.answerScrub (h : Kept r s) {n} : Kept r (s.answerScrub n) := by
  unfold State.answerScrub; split <;> exact h.respond

theorem Kept.endScrub (h : Kept r s) {n} : Kept r (s.endScrub n) := by
  unfold State.endScrub
  have h1 : Kept r (({ s with store := { s.store with scrubStep := none } } : State).stopOnErrors n) :=
    h.store (.stopOnErrors (StoreCalm.withStore (.refl _) _ rfl id))
  have h2 : Kept r (if n.host = true then (({ s with store := { s.store with scrubStep := none } } : State).stopOnErrors n).answerScrub n
      else ({ s with store := { s.store with scrubStep := none } } : State).stopOnErrors n) := Kept.ite (fun _ => answerScrub h1) fun _ => h1
  dsimp only
  generalize (if n.host = true then (({ s with store := { s.store with scrubStep := none } } : State).stopOnErrors n).answerScrub n
      else ({ s with store := { s.store with scrubStep := none } } : State).stopOnErrors n) = s2 at h2 ⊢
  split
  · exact h2.store (.afterScrub (.refl _))
  · have h3 : Kept r { s2 with store := { s2.store with scrubWaiting := none } } := h2.store (StoreCalm.withStore (.refl _) _ rfl id)
    repeat' split
    · exact h3.store (.beginScrub (.refl _))
    · exact (answerScrub h3).store (.afterScrub (.refl _))
    · exact (h3.store (.startScrubTimer (.refl _))).store (.beginScrub (.refl _))
    · exact (answerScrub (h3.store (.startScrubTimer (.refl _)))).store (.afterScrub (.refl _))

theorem Kept.scrubPage (h : Kept r s) {n} : Kept r (s.scrubPage n) := by
  unfold State.scrubPage; repeat' split
  · exact h.refuse
  · exact h.store (.beginScrub (.refl _))
  · exact h.store (StoreCalm.withStore (.refl _) _ rfl id)
  · exact h.refuse

theorem Kept.scrubPortionComplete (h : Kept r s) {p e} : Kept r (s.scrubPortionComplete p e) := by
  unfold State.scrubPortionComplete; dsimp only
  have h1 : Kept r ((s.applyErrors p e).settlePage p) := (h.store (.applyErrors (.refl _))).store (.settlePage (.refl _))
  repeat' split
  · exact h1
  · exact h1.store (StoreCalm.askPort (StoreCalm.withStore (.refl _) _ rfl id))
  · exact endScrub h1

theorem Kept.copyBurst (h : Kept r s) {m p} : Kept r (s.copyBurst m p) := by
  have h1 : Kept r (s.copyBytes m.page m.target p Config.burstBytes) := h.copyBytes
  unfold State.copyBurst; dsimp only
  generalize s.copyBytes m.page m.target p Config.burstBytes = t at h1 ⊢
  split
  · exact h1.store (.askPort (StoreCalm.withStore (.refl _) _ rfl id))
  · exact h1.store (.completeMigration (StoreCalm.withStore (.refl _) _ rfl id))

theorem Kept.migrationBurstComplete (h : Kept r s) {a b c d} : Kept r (s.migrationBurstComplete a b c d) := by
  unfold State.migrationBurstComplete; dsimp only
  have h1 := h.store (StoreCalm.applyErrors (p := a) (e := d) (.refl s))
  repeat' split
  · exact copyBurst h1
  · exact h1.store (.settlePage (.refl _))
  · exact h1.store (.settlePage (.refl _))

theorem Kept.resetSlot (h : Kept r s) {n} : Kept r (s.resetSlot n) := by
  unfold State.resetSlot; repeat' split
  · exact h.refuse
  · exact h.refuse
  · exact (h.card (.modSlot (.refl _))).respond

theorem Kept.importFrame (h : Kept r s) {a b c d} : Kept r (s.importFrame a b c d) := by
  unfold State.importFrame State.queueImport; dsimp only; repeat' split
  any_goals with_reducible exact h.refuse
  exact (h.card (.modSlot (CardCalm.store (.refl _) (.createFrameAt (.refl _))))).respond

theorem Kept.cancelImport (h : Kept r s) {a} : Kept r (s.cancelImport a) := by
  unfold State.cancelImport; dsimp only; repeat' split
  any_goals with_reducible exact h.refuse
  any_goals exact (h.store (.damageFrame (.refl _))).respond
  exact (h.card (.recordCancel (.refl _))).respond

theorem Kept.blockWriteComplete (h : Kept r s) {a b c d} : Kept r (s.blockWriteComplete a b c d) := by
  unfold State.blockWriteComplete; dsimp only
  split
  · exact h.store (.freeBuffer (.refl _))
  · rename_i f _
    have h1 : Kept r ((s.writeFrame f (c * Config.blockBytes) d).freeBuffer a) := h.writeFrame.store (.freeBuffer (.refl _))
    repeat' split
    · exact (h1.card (.modProgress (.refl _))).card (.completeImport (.refl _))
    · exact h1.card (.modProgress (.refl _))
    · exact h1.card (.modProgress (.refl _))
    · exact h1.store (.settleFrame (.refl _))

theorem Kept.storeRestarted (h : Kept r s) {n o} : Kept r (s.storeRestarted n o) := Kept.setFlag (h.money (.setOrder (.refl _)))

theorem Kept.moveReference (h : Kept r s) {n o} : Kept r (s.moveReference n o) := by
  unfold State.moveReference; split
  · exact h
  · exact h.store (.lowerReference (.raiseReference (.refl _)))

theorem Kept.openOrder (h : Kept r s) {a b} : Kept r (s.openOrder a b) := by
  unfold State.openOrder; dsimp only; repeat' split
  any_goals with_reducible exact h.refuse
  refine Kept.respond (Kept.money ?_ (.setOrder (.refl _)))
  exact h.money (MoneyCalm.withBook (.refl _) _ id)

theorem Kept.addLine (h : Kept r s) {a b c d n o} : Kept r (s.addLine a b c d n o) := by
  unfold State.addLine; dsimp only; repeat' split
  any_goals with_reducible exact h.refuse
  any_goals exact ((storeRestarted h).store (.raiseReference (.refl _))).respond

theorem Kept.changeLine (h : Kept r s) {a b c d e n o} : Kept r (s.changeLine a b c d e n o) := by
  unfold State.changeLine; dsimp only; repeat' split
  any_goals with_reducible exact h.refuse
  all_goals exact (moveReference (storeRestarted h)).respond

theorem Kept.removeLine (h : Kept r s) {a n o} : Kept r (s.removeLine a n o) := by
  unfold State.removeLine; dsimp only; repeat' split
  any_goals with_reducible exact h.refuse
  all_goals exact ((storeRestarted h).store (.lowerReference (.refl _))).respond

theorem Kept.setPriority (h : Kept r s) {a n o} : Kept r (s.setPriority a n o) := by
  unfold State.setPriority; repeat' split
  any_goals with_reducible exact h.refuse
  · exact (storeRestarted h).respond
  all_goals exact (h.money (.setOrder (.refl _))).respond

theorem Kept.lockOrder (h : Kept r s) {n o} : Kept r (s.lockOrder n o) := by
  unfold State.lockOrder State.lockChecked; dsimp only; repeat' split
  any_goals with_reducible exact h.refuse
  · exact (h.money (.enterPrinting (.setOrder (.refl _)))).dispatch.respond
  · exact (h.money (.createSale (.setOrder (.refl _)))).respond

theorem Kept.cancelOrder (h : Kept r s) {n o} : Kept r (s.cancelOrder n o) := by
  unfold State.cancelOrder; dsimp only; repeat' split
  any_goals with_reducible exact h.refuse
  any_goals with_reducible exact h.respond
  · exact (h.money (.setOrder (.refl _))).respond
  · exact (h.money (.withdrawTender (.setOrder (.refl _)))).respond
  · exact (h.money (.setOrder (.refl _))).respond
  · exact (h.money (.settle (.removePairs (.setOrder (.refl _))))).respond

theorem Kept.retireOrder (h : Kept r s) {n o} : Kept r (s.retireOrder n o) := by
  have h1 : Kept r (s.forEach o.lines fun l t => t.lowerReference l.frame) :=
    forEach_keeps (P := Kept r) (fun _ _ k => k.store (.lowerReference (.refl _))) _ h
  have e : ∀ t : State, Kept r t → Kept r (({ t with book := { t.book with orders := erase n t.book.orders } }.setFlag (orderFlag n)).respond .ok []) := by
    intro t ht
    exact (ht.money (MoneyCalm.setFlag (MoneyCalm.withBook (.refl _) _ Ascending.erase))).respond
  unfold State.retireOrder; dsimp only; repeat' split
  any_goals with_reducible exact h.refuse
  · exact e _ (h1.money (.freeTender (.refl _)))
  · exact e _ h1
  · exact e _ (h1.money (.freeTender (.refl _)))
  · exact e _ h1

theorem Kept.withPrices (h : Kept r s) (p : Vector Price 16) : Kept r { s with book := { s.book with prices := p } } :=
  h.keep rfl rfl rfl rfl rfl id

theorem Kept.setPrice (h : Kept r s) {a b c d} : Kept r (s.setPrice a b c d) := by
  unfold State.setPrice; repeat' split
  any_goals with_reducible exact h.refuse
  refine Kept.respond (Kept.dispatch ?_)
  exact h.keep rfl rfl rfl rfl rfl id

theorem Kept.setLineMode (h : Kept r s) {a b c d e f} : Kept r (s.setLineMode a b c d e f) := by
  unfold State.setLineMode; repeat' split
  any_goals with_reducible exact h.refuse
  any_goals with_reducible exact h.respond
  · exact (h.line (.applyMode (.refl _))).respond

theorem Kept.readLine (h : Kept r s) {a b} : Kept r (s.readLine a b) := by
  unfold State.readLine; dsimp only; repeat' split
  any_goals with_reducible exact h.refuse
  · exact (h.line (.modLine (.refl _))).respond
  · exact h.respond

theorem Kept.enquireTender (h : Kept r s) {t q} : Kept r (s.enquireTender t q) := by
  unfold State.enquireTender; split
  · exact h.refuse
  · exact (h.money (.carry (.takeUp (.refl _)))).respond

theorem Kept.writeOffOrder (h : Kept r s) {t q} : Kept r (s.writeOffOrder t q) := by
  unfold State.writeOffOrder; repeat' split
  any_goals with_reducible exact h.refuse
  exact (h.money (.reportWrittenOff (.setTender (.refl _)))).respond

theorem Kept.setEngine (h : Kept r s) {a b c} : Kept r (s.setEngine a b c) := by
  unfold State.setEngine; repeat' split
  any_goals with_reducible exact h.refuse
  exact (h.calm (Calm.modEngine (.refl _))).dispatch.respond

theorem Kept.readEngine (h : Kept r s) {a b} : Kept r (s.readEngine a b) := by
  unfold State.readEngine; dsimp only; repeat' split
  any_goals with_reducible exact h.refuse
  · exact (h.calm (Calm.modEngine (.refl _))).respond
  · exact h.respond

theorem Kept.setHostHold (h : Kept r s) {a b} : Kept r (s.setHostHold a b) := by
  unfold State.setHostHold; repeat' split
  any_goals with_reducible exact h.refuse
  exact (h.calm (Calm.modEngine (.refl _))).dispatch.respond

theorem Kept.settingsRead (h : Kept r s) {a b} : Kept r (s.settingsRead a b) := by
  unfold State.settingsRead; dsimp only; split
  · exact h.refuse
  · exact h.calm (Calm.claimBus (.refl _))

theorem Kept.settingsWrite (h : Kept r s) {a b} : Kept r (s.settingsWrite a b) := by
  unfold State.settingsWrite; dsimp only; repeat' split
  any_goals with_reducible exact h.refuse
  exact h.calm (Calm.claimBus (.refl _))

theorem Kept.hostTransferEnds (h : Kept r s) {a b} : Kept r (s.hostTransferEnds a b) := by
  unfold State.hostTransferEnds; split
  · exact h.respond
  · exact (h.calm (Calm.busFailure (.refl _))).refuse

theorem Kept.recoveryEnds (h : Kept r s) {a} : Kept r (s.recoveryEnds a) := by
  unfold State.recoveryEnds; split
  · exact h.respond
  · exact (h.calm (Calm.busStuck (.refl _))).refuse

theorem Kept.shiftOut (h : Kept r s) : Kept r s.shiftOut := by
  unfold State.shiftOut; dsimp only; split <;> exact h.link _ id

theorem Kept.judgeRequest (h : Kept r s) {a b c d} : Kept r (s.judgeRequest a b c d) := by
  unfold State.judgeRequest; repeat' split
  any_goals with_reducible exact h.refuse
  all_goals exact h.link _ id

theorem Kept.judgeFrame (h : Kept r s) {l} : Kept r (s.judgeFrame l) := by
  have h1 : Kept r { s with link := { s.link with buffer := [] } } := h.link _ id
  unfold State.judgeFrame; dsimp only; split
  · exact h1.judgeRequest
  · exact h1

theorem Kept.takeByte (h : Kept r s) {b} : Kept r (s.takeByte b) := by
  unfold State.takeByte; dsimp only; repeat' split
  · exact h
  · exact h.link _ id
  · exact h.judgeFrame
  · exact h.link _ id

theorem Kept.clockByte (h : Kept r s) {b} : Kept r (s.clockByte b) := by
  have h1 := h.shiftOut
  unfold State.clockByte; dsimp only; repeat' split
  · exact h1.beginFrame
  · exact h1
  · exact h1.beginFrame
  · exact h1
  · exact h1.takeByte
  · exact h1
  · exact h1.setCondition

theorem Kept.clockBytes (h : Kept r s) {l} : Kept r (s.clockBytes l) := foldl_keeps (fun _ _ k => k.clockByte) l h

theorem Kept.csRises (h : Kept r s) : Kept r s.csRises := by
  have h1 := h.link { s.link with selected := false } id
  unfold State.csRises; dsimp only; repeat' split
  · exact h1
  · refine Kept.refuse ?_
    exact h.link _ id
  · refine Kept.restartEffect ?_
    exact h.link _ id
  · exact h1

theorem Kept.takeChanges (h : Kept r s) : Kept r s.takeChanges := by
  unfold State.takeChanges; dsimp only
  exact Kept.respond (h.link _ fun k => List.Pairwise.sublist (List.drop_sublist _ _) k)

theorem Kept.readConditions (h : Kept r s) {m} : Kept r (s.readConditions m) := by
  unfold State.readConditions; split
  · exact h.refuse
  · refine Kept.respond ?_
    exact h.link _ id

theorem Kept.params_get_set (q : Params) (p v x : Nat) (hp : p < 18) (hx : x < 18) : (q.set p v).get x = if x = p then v else q.get x := by
  interval_cases p <;> interval_cases x <;> rfl

theorem Kept.paramAdmits_lt {p v} (h : paramAdmits p v = true) : p < 18 := by
  by_contra hc
  unfold paramAdmits paramRange at h
  split at h
  · cases h
  · rename_i heq
    split at heq <;> first | omega | cases heq

theorem Kept.setParameter (h : Kept r s) {p v} : Kept r (s.setParameter p v) := by
  unfold State.setParameter; dsimp only; repeat' split
  · exact h.refuse
  · exact h.respond
  · rename_i h1 _
    have ha : paramAdmits p.toNat v.toNat = true := by simpa using h1
    have h2 : Kept r ({ s with params := s.params.set p.toNat v.toNat }) := h.trans ⟨id, id, id, fun k x hx => by
      show paramAdmits x ((s.params.set _ _).get x) = true
      rw [params_get_set _ _ _ _ (paramAdmits_lt ha) hx]
      split
      · rename_i e; rw [e]; exact ha
      · exact k x hx, id⟩
    unfold State.storeParameter
    refine Kept.respond ?_
    have h3 := h2.setFlag (c := partFlag)
    unfold State.parameterStored; split
    · split
      · exact h3.store (.refill (.refl _))
      · exact h3.store (.returnExcess (.refl _))
    · exact h3.store (.judgeLow (.refl _))
    · exact h3.store (.rescrub (.refl _))
    · exact h3.money (MoneyCalm.withBook (.refl _) _ id)
    · exact h3.calm (Calm.remask (.refl _))
    · exact h3.calm (Calm.evaluateHolds (.refl _))
    · exact h3

theorem Kept.readParameter (h : Kept r s) {p} : Kept r (s.readParameter p) := by
  unfold State.readParameter; split
  · exact h.refuse
  · exact h.respond

theorem Kept.restart (h : Kept r s) : Kept r s.restart := Kept.link h.respond _ id

theorem Kept.endStartUp (h : Kept r s) : Kept r s.endStartUp := by
  unfold State.endStartUp; dsimp only
  have h1 : Kept r ({ s with part := { s.part with started := true } } : State) := h.keep rfl rfl rfl rfl rfl fun _ => rfl
  exact (h1.setCondition.store (.startPatrol (.formPools (.refl _)))).calm (.beginPolling (.evaluateHolds (.sampleInputs (.refl _))))

theorem Kept.tryEndStartUp (h : Kept r s) : Kept r s.tryEndStartUp := Kept.ite (fun _ => endStartUp h) fun _ => h

theorem Kept.loadDone (h : Kept r s) {o} : Kept r (s.loadDone o) := tryEndStartUp (h.keep rfl rfl rfl rfl rfl id)

theorem Kept.loadUnanswered (h : Kept r s) {o} : Kept r (s.loadUnanswered o) :=
  loadDone (h.calm (Calm.setCondition (Calm.busFailure (.refl _))))

theorem Kept.optionTaken (h : Kept r s) {o} : Kept r (s.optionTaken o) := by
  unfold State.optionTaken; split
  · refine Kept.calm ?_ (Calm.claimBus (.refl _))
    exact h.keep rfl rfl rfl rfl rfl id
  · exact loadDone h

theorem Kept.get_foldl (image : List Byte) (q : Params) (n : Nat) (hn : n ≤ 18) (x : Nat) (hx : x < 18) :
    ((List.range n).foldl (fun r p => r.set p (imageParam image p)) q).get x = if x < n then imageParam image x else q.get x := by
  induction n with
  | zero => simp
  | succ n ih =>
    rw [List.range_succ, List.foldl_append]
    simp only [List.foldl_cons, List.foldl_nil]
    rw [params_get_set _ _ _ _ (by omega) hx, ih (by omega)]
    by_cases h1 : x = n
    · subst h1; simp
    · rw [if_neg h1]
      by_cases h2 : x < n
      · rw [if_pos h2, if_pos (by omega)]
      · rw [if_neg h2, if_neg (by omega)]

theorem Kept.withParams (h : Kept r s) (q : Params) (hq : ∀ p, p < 18 → paramAdmits p (q.get p) = true) : Kept r { s with params := q } :=
  h.trans ⟨id, id, id, fun _ => hq, id⟩

theorem Kept.withCards (h : Kept r s) (c : Cards) : Kept r { s with cards := c } := h.keep rfl rfl rfl rfl rfl id

theorem Kept.judgeImage (h : Kept r s) {l i} : Kept r (s.judgeImage l i) := by
  unfold State.judgeImage; split
  · rename_i hg
    refine loadDone ?_
    have hr : ∀ p, p < 18 → paramAdmits p (imageParam i p) = true := by
      intro p hp
      simp only [rangesGood, Bool.and_eq_true, List.all_eq_true, List.mem_range] at hg
      obtain ⟨_, ⟨⟨_, h18⟩, _⟩, _⟩ := hg
      exact h18 p hp
    have h1 : Kept r { s with params := applyParams i s.params } := withParams h _ (by
      intro x hx
      unfold applyParams
      rw [get_foldl _ _ _ (le_refl _) _ hx, if_pos hx]
      exact hr x hx)
    have h2 : Kept r (({ s with params := applyParams i s.params } : State).forEach (List.finRange 4) (State.applyLineEntry i)) :=
      forEach_keeps (P := Kept r) (fun a t k => by
        unfold State.applyLineEntry; dsimp only; split
        · exact k.line (.applyMode (.refl _))
        · exact k) _ h1
    have h3 := forEach_keeps (P := Kept r) (f := State.applyEngineEntry i) (fun a t k => by
        unfold State.applyEngineEntry; dsimp only
        exact k.calm (Calm.modEngine (.refl _))) (List.finRange 3) h2
    unfold State.applyImage; dsimp only; split
    · exact h3.withPrices _
    · exact h3
  · exact loadDone h.setCondition

/-- The canonical forms and the parameter ranges at power-on, whatever stood before. -/
theorem powerUp_sound (s : State) (b : Bool) :
    MemorySound (s.powerUp b) ∧ FlagsSound (s.powerUp b) ∧ TablesSound (s.powerUp b) ∧ ParamsInRange (s.powerUp b) :=
  ⟨(by decide : Memory.wf [] = true), List.Pairwise.nil, ⟨List.Pairwise.nil, List.Pairwise.nil, List.Pairwise.nil⟩,
    fun p hp => show paramAdmits p (Params.reset.get p) = true by interval_cases p <;> decide⟩

theorem Kept.countScrub (h : Kept r s) {e} : Kept r (s.countScrub e) := h.store (StoreCalm.withStore (.refl _) _ rfl id)

/-- An access carried out in part keeps the forms. -/
theorem Kept.carryOut (h : Kept r s) {a n e f} : Kept r (s.carryOut a n e f) := by
  unfold State.carryOut; split
  · exact h.store (.applyErrors (.refl _))
  · exact (h.store (.applyErrors (.refl _))).countScrub
  · exact Kept.store h.copyBytes (.applyErrors (.refl _))
  all_goals split
  any_goals exact h.writeFrame
  any_goals exact h
  exact h.store (.applyReads (.refl _))

theorem Kept.stopAccess (h : Kept r s) : Kept r s.stopAccess := by
  unfold State.stopAccess; split
  · exact h
  · dsimp only
    refine Kept.carryOut ?_
    exact h.endAccess.keep rfl rfl rfl rfl rfl id

theorem Kept.resolvePinReset (h : Kept r s) : Kept r s.resolvePinReset := by
  unfold State.resolvePinReset; dsimp only
  refine Kept.sheet ?_ (SheetCalm.forEachFreely (fun _ _ k => k.failStreaming) (.refl _))
  refine Kept.money ?_ (.resetTenders (.resetBook (.refl _)))
  refine withCards ?_ _
  refine Kept.sheet ?_ (.resetStore (.refl _))
  refine Kept.stopAccess ?_
  exact h.keep rfl rfl rfl rfl rfl id

theorem Kept.releaseReset (h : Kept r s) : Kept r s.releaseReset := by
  unfold State.releaseReset; dsimp only
  refine Kept.calm ?_ (.beginPolling (.evaluateHolds (.sampleInputs (.refl _))))
  refine Kept.setCondition ?_
  have h1 : Kept r ({ s with part := { s.part with inReset := false }, lines := s.lines.map PayLine.beginSampling } : State) := h.keep rfl rfl rfl rfl rfl id
  exact setAll h1

end

end Sys2Proof.Machine
end

