-- ==== Sys2Proof/Laws/StartUp.lean ====
section
/-! SUPPORT. What the sampling of the inputs, the evaluation of the holds and the application of a settings image give, for start-up and
for the release of a pin reset. -/

namespace Sys2Proof.Machine

section
variable {s : State}

/-- A change of one member made for each member of a list without repeats reaches exactly the members of the list. -/
theorem forEach_reads {n : Nat} {β : Type} (get : Fin n → State → β) (f : Fin n → State → State) (g : Fin n → β → β)
    (hf : ∀ i x t, get x (f i t) = if x = i then g i (get i t) else get x t) (l : List (Fin n)) (hl : l.Nodup) (x : Fin n)
    (s : State) : get x (s.forEach l f) = if x ∈ l then g x (get x s) else get x s := by
  unfold State.forEach
  induction l generalizing s with
  | nil => rfl
  | cons i rest ih =>
    obtain ⟨hi, hr⟩ := List.nodup_cons.mp hl
    rw [List.foldl_cons, ih hr, hf]
    by_cases hx : x = i
    · subst hx
      rw [if_neg hi, if_pos rfl, if_pos List.mem_cons_self]
    · rw [if_neg hx]
      by_cases hm : x ∈ rest
      · rw [if_pos hm, if_pos (List.mem_cons_of_mem _ hm)]
      · rw [if_neg hm, if_neg (by simp [hx, hm])]

/-- The same for every member. -/
theorem forEach_finRange {n : Nat} {β : Type} (get : Fin n → State → β) (f : Fin n → State → State) (g : Fin n → β → β)
    (hf : ∀ i x t, get x (f i t) = if x = i then g i (get i t) else get x t) (x : Fin n) (s : State) :
    get x (s.forEach (List.finRange n) f) = g x (get x s) := by
  rw [forEach_reads get f g hf _ (List.nodup_finRange n), if_pos (List.mem_finRange x)]

/-- What a slot takes from DET_N as it stands. -/
def Slot.detected (t : Slot) : Slot := if t.detect ∧ t.state = .empty then t.settle else t

theorem engine_of_engines {s t : State} (h : t.engines = s.engines) (e : Fin 3) : t.engine e = s.engine e := by
  unfold State.engine; rw [h]

theorem slot_of_cards {s t : State} (h : t.cards = s.cards) (i : Fin 8) : t.slot i = s.slot i := by
  unfold State.slot; rw [h]

theorem line_of_lines {s t : State} (h : t.lines = s.lines) (i : Fin 4) : t.line i = s.line i := by
  unfold State.line; rw [h]

/-- What modSlot leaves alone. -/
theorem modSlot_rest (s : State) (i : Fin 8) (g : Slot → Slot) :
    s.modSlot i g = { s with link := { s.link with flags := (s.modSlot i g).link.flags }, cards := (s.modSlot i g).cards } := by
  unfold State.modSlot State.setSlot State.setFlagIf State.setFlag; split <;> rfl

/-- What modEngine leaves alone. -/
theorem modEngine_rest (s : State) (e : Fin 3) (g : Engine → Engine) :
    s.modEngine e g = { s with link := { s.link with flags := (s.modEngine e g).link.flags }, engines := (s.modEngine e g).engines } := by
  unfold State.modEngine State.setEngineRec State.setFlagIf State.setFlag; split <;> rfl

/-- What modLine leaves alone. -/
theorem modLine_rest (s : State) (i : Fin 4) (g : PayLine → PayLine) :
    s.modLine i g = { s with link := { s.link with flags := (s.modLine i g).link.flags }, lines := (s.modLine i g).lines } := by
  unfold State.modLine State.setLineRec State.setFlagIf State.setFlag; split <;> rfl

/-- A slot after the inputs are sampled. -/
theorem slot_sampleInputs (s : State) (i : Fin 8) : (s.sampleInputs).slot i = (s.slot i).detected := by
  unfold State.sampleInputs
  dsimp only
  have h : ∀ (l : List (Fin 3)) (t : State), (t.forEach l fun e u => u.modEngine e Engine.samplePresence).slot i = t.slot i := by
    intro l
    induction l with
    | nil => intro t; rfl
    | cons e rest ih => intro t; exact (ih _).trans (slot_of_cards (State.modEngine_cards ..) i)
  rw [h]
  exact forEach_finRange State.slot State.detectSlot (fun _ => Slot.detected) (fun i x t => slot_modSlot t i x _) i s

/-- An engine after the inputs are sampled. -/
theorem engine_sampleInputs (s : State) (e : Fin 3) : (s.sampleInputs).engine e = (s.engine e).samplePresence := by
  unfold State.sampleInputs
  dsimp only
  rw [forEach_finRange State.engine _ (fun _ => Engine.samplePresence) (fun i x t => engine_modEngine t i x _) e]
  refine congrArg _ ?_
  have h : ∀ (l : List (Fin 8)) (t : State), (t.forEach l State.detectSlot).engine e = t.engine e := by
    intro l
    induction l with
    | nil => intro t; rfl
    | cons i rest ih =>
      intro t
      refine (ih _).trans (engine_of_engines ?_ e)
      unfold State.detectSlot
      exact State.modSlot_engines ..
  exact h _ s

/-- Everything but the link, the slots and the engines is as it was when the inputs have been sampled. -/
theorem sampleInputs_rest (s : State) :
    s.sampleInputs = { s with link := { s.link with flags := s.sampleInputs.link.flags }, cards := s.sampleInputs.cards, engines := s.sampleInputs.engines } := by
  have h1 : ∀ (l : List (Fin 8)) (t : State), t.forEach l State.detectSlot =
      { t with link := { t.link with flags := (t.forEach l State.detectSlot).link.flags }, cards := (t.forEach l State.detectSlot).cards } := by
    intro l
    induction l with
    | nil => intro t; rfl
    | cons i rest ih =>
      intro t
      have h := ih (t.detectSlot i)
      unfold State.forEach at h ⊢
      rw [List.foldl_cons, h]
      unfold State.detectSlot
      rw [modSlot_rest]
  have h2 : ∀ (l : List (Fin 3)) (t : State), (t.forEach l fun e u => u.modEngine e Engine.samplePresence) =
      { t with link := { t.link with flags := (t.forEach l fun e u => u.modEngine e Engine.samplePresence).link.flags },
               engines := (t.forEach l fun e u => u.modEngine e Engine.samplePresence).engines } := by
    intro l
    induction l with
    | nil => intro t; rfl
    | cons i rest ih =>
      intro t
      have h := ih (t.modEngine i Engine.samplePresence)
      unfold State.forEach at h ⊢
      rw [List.foldl_cons, h]
      rw [modEngine_rest]
  unfold State.sampleInputs
  dsimp only
  rw [h2, h1]

/-- Where no engine is ONLINE the evaluation of the holds changes hold reasons alone. -/
theorem evaluateHold_offline (e : Fin 3) (h : ∀ k, (s.engine k).link ≠ .online) :
    (∀ k, ((s.evaluateHold e).engine k).link = (s.engine k).link) ∧
    (∀ k, (s.evaluateHold e).engine k = { s.engine k with holds := ((s.evaluateHold e).engine k).holds }) ∧
    s.evaluateHold e = { s with link := { s.link with flags := (s.evaluateHold e).link.flags }, engines := (s.evaluateHold e).engines } ∧
    Calm s (s.evaluateHold e) := by
  have k0 : Calm s (s.evaluateHold e) := (Calm.refl s).evaluateHold
  unfold State.evaluateHold at *
  dsimp only at *
  have g : ∀ (t : State) (b : Engine → Engine), (∀ r, (b r).link = r.link) → (∀ k, (t.engine k).link ≠ .online) →
      (t.modEngine e b).dispatch = t.modEngine e b ∧ ∀ k, ((t.modEngine e b).engine k).link = (t.engine k).link := by
    intro t b hb ht
    have h1 : ∀ k, ((t.modEngine e b).engine k).link = (t.engine k).link := by
      intro k; rw [engine_modEngine]; split
      · next hk => rw [hb, hk]
      · rfl
    exact ⟨dispatch_eq_self fun k => eligible_of_link (by rw [h1]; exact ht k), h1⟩
  obtain ⟨d1, l1⟩ := g s (fun r => { r with holds := { r.holds with thermalHigh := s.wantsHigh e } }) (fun _ => rfl) h
  rw [d1] at k0 ⊢
  obtain ⟨d2, l2⟩ := g (s.modEngine e fun r => { r with holds := { r.holds with thermalHigh := s.wantsHigh e } })
    (fun r => { r with holds := { r.holds with thermalStale :=
      (s.modEngine e fun r => { r with holds := { r.holds with thermalHigh := s.wantsHigh e } }).wantsStale e } }) (fun _ => rfl)
    (fun k => by rw [l1]; exact h k)
  rw [d2] at k0 ⊢
  refine ⟨fun k => by rw [l2, l1], fun k => ?_, ?_, k0⟩
  · rw [engine_modEngine, engine_modEngine, engine_modEngine]
    split
    · next hk => simp [hk]
    · simp
  · rw [modEngine_rest, modEngine_rest]

/-- The same for all three engines. -/
theorem evaluateHolds_offline (h : ∀ k, (s.engine k).link ≠ .online) :
    (∀ k, s.evaluateHolds.engine k = { s.engine k with holds := (s.evaluateHolds.engine k).holds }) ∧
    s.evaluateHolds = { s with link := { s.link with flags := s.evaluateHolds.link.flags }, engines := s.evaluateHolds.engines } := by
  unfold State.evaluateHolds
  obtain ⟨a1, b1, c1, -⟩ := evaluateHold_offline (s := s) 0 h
  obtain ⟨a2, b2, c2, -⟩ := evaluateHold_offline (s := s.evaluateHold 0) 1 fun k => by rw [a1]; exact h k
  obtain ⟨-, b3, c3, -⟩ := evaluateHold_offline (s := (s.evaluateHold 0).evaluateHold 1) 2 fun k => by rw [a2, a1]; exact h k
  refine ⟨fun k => ?_, ?_⟩
  · rw [b3, b2, b1]
  · rw [c3, c2, c1]

/-! ### The pools and the patrol -/

theorem length_allPages : allPages.length = 4096 := by unfold allPages; exact List.length_finRange

/-- What judging STORE_LOW leaves alone. -/
theorem judgeLow_rest (s : State) :
    s.judgeLow = { s with link := { s.link with flags := s.judgeLow.link.flags, conditions := s.judgeLow.link.conditions } } := by
  unfold State.judgeLow State.setCondition; split <;> rfl

/-- STORE_LOW is set where the Free Pool holds fewer pages than the low mark, and no other condition. -/
theorem hasCondition_judgeLow (s : State) (c : Condition) :
    s.judgeLow.hasCondition c = (decide (c = .storeLow ∧ s.store.freePool.length < s.params.lowMark) || s.hasCondition c) := by
  unfold State.judgeLow
  split
  · next h => rw [hasCondition_setCondition]; simp [h]
  · next h => simp [h]

theorem flags_judgeLow {s : State} {k : Nat} (h : k ∈ s.link.flags) : k ∈ s.judgeLow.link.flags := by
  unfold State.judgeLow; split
  · exact insertAsc_mem_of_mem h
  · exact h

/-- What the forming of the pools gives. -/
theorem formPools_eq (s : State) :
    s.formPools = { s with store := { s.store with
        freePool := allPages.take (4096 - s.params.spareTarget), spares := allPages.drop (4096 - s.params.spareTarget) } }.judgeLow :=
  rfl

/-- What the start of the patrol leaves alone. -/
theorem startPatrol_rest (s : State) :
    s.startPatrol = { s with store := { s.store with
      patrol := if s.params.scrubInterval = 0 then .idle else .running
      scrubTimer := if s.params.scrubInterval = 0 then s.store.scrubTimer else some s.params.scrubInterval } } := by
  unfold State.startPatrol State.startScrubTimer
  split <;> rfl

/-- What the beginning of polling leaves alone. -/
theorem beginPolling_rest (s : State) :
    s.beginPolling = { s with thermal := s.beginPolling.thermal, bus := s.beginPolling.bus } := by
  unfold State.beginPolling State.startPolling State.makePoll State.claimBus
  split
  · rfl
  · split
    · rfl
    · split <;> rfl

theorem firstPresent_of {s t : State} (h : t.params = s.params) (i : Fin 4) : t.firstPresent i = s.firstPresent i := by
  unfold State.firstPresent State.present; rw [h]

/-- Polling begins on a free bus with no claim waiting: the transfer of the first present sensor begins at once. -/
theorem beginPolling_free {s : State} {i : Fin 4} (hs : s.thermal.state ≠ .stopped) (hm : s.params.presentMask ≠ 0)
    (hi : s.firstPresent s.thermal.cursor = some i) (hb : s.bus.current = none) (hc : s.bus.claims = []) :
    s.beginPolling.thermal.state = .running ∧ s.beginPolling.bus.current = some (.poll i false) ∧ s.beginPolling.bus.claims = [] := by
  have hf : ({ s with thermal := { s.thermal with state := .running, stopCause := none } } : State).firstPresent s.thermal.cursor
      = some i := hi
  unfold State.beginPolling State.startPolling State.makePoll State.claimBus
  rw [if_neg (by simp [hs, hm])]
  simp only [hf, hc, hb, Bus.serve, Bus.begin, List.any_nil, List.nil_append, Bool.false_eq_true, if_false, and_self]

end

end Sys2Proof.Machine
end

