-- ==== Sys2Proof/Laws/Loading.lean ====
section
/-! SUPPORT. What holds of the part in start-up (InStartUp), and why the pieces of its commands keep it: the arbiters find nothing to
grant, a request is turned away, and on UNSET lines without tenders the events of the payment lines change input levels alone. -/

namespace Sys2Proof.Machine

section
variable {s t : State}

/-- Once start-up has ended nothing is left to hold. -/
theorem AwaitsLoad.of_started (h : t.part.started = true) : AwaitsLoad t := fun k => by rw [h] at k; cases k

/-! ### The lines and the tenders at rest -/

theorem MoneyAtRest.keep (h : MoneyAtRest s) (hl : t.lines = s.lines) (ht : t.tenders = s.tenders) : MoneyAtRest t :=
  ⟨fun i => by rw [line_of_lines hl]; exact h.lines i, ht.trans h.tenders⟩

theorem MoneyAtRest.tender (h : MoneyAtRest s) (k : Nat) : s.tender k = none := by
  unfold State.tender; rw [h.tenders]; rfl

theorem MoneyAtRest.mode (h : MoneyAtRest s) (i : Fin 4) : (s.line i).mode = none := by rw [h.lines i]; rfl

theorem MoneyAtRest.enable (h : MoneyAtRest s) (i : Fin 4) : (s.line i).enable = false := by rw [h.lines i]; rfl

theorem MoneyAtRest.state (h : MoneyAtRest s) (i : Fin 4) : (s.line i).state = .unset := by rw [h.lines i]; rfl

theorem MoneyAtRest.dsr (h : MoneyAtRest s) (i : Fin 4) : (s.line i).dsr = false := by rw [h.lines i]; rfl

theorem MoneyAtRest.dsrFilter (h : MoneyAtRest s) (i : Fin 4) : (s.line i).dsrFilter = none := by rw [h.lines i]; rfl

theorem MoneyAtRest.ctsWait (h : MoneyAtRest s) (i : Fin 4) : (s.line i).ctsWait = none := by rw [h.lines i]; rfl

theorem MoneyAtRest.txChar (h : MoneyAtRest s) (i : Fin 4) : (s.line i).txChar = .idle := by rw [h.lines i]; rfl

theorem MoneyAtRest.handOff (h : MoneyAtRest s) (i : Fin 4) : (s.line i).handOff = none := by rw [h.lines i]; rfl

/-- No reply is heard on an UNSET line. -/
theorem MoneyAtRest.hears (h : MoneyAtRest s) (i : Fin 4) (k : Nat) (q : Reply) : s.hears i k q = false := by
  unfold State.hears PayLine.clear; rw [h.handOff, h.state]; simp

/-- A change of a line that only moves the levels of its inputs leaves the lines and the tenders at rest. -/
theorem MoneyAtRest.modLine (h : MoneyAtRest s) {i : Fin 4} {g : PayLine → PayLine}
    (hg : g (s.line i) = { s.line i with dsrInput := (g (s.line i)).dsrInput, cts := (g (s.line i)).cts }) :
    MoneyAtRest (s.modLine i g) := by
  refine ⟨fun j => ?_, by rw [modLine_rest]; exact h.tenders⟩
  rw [line_modLine]; split
  · have hi := h.lines i
    generalize g (s.line i) = q at hg ⊢
    rw [hg, hi]
  · exact h.lines j

/-- A settings image's mode on an UNSET line: the line stands in DOWN and samples DSR. -/
theorem applyMode_atRest (h : MoneyAtRest s) (i : Fin 4) (m : LineMode) (enable : Bool) :
    s.applyMode i m enable = s.modLine i fun q => { q with
      mode := some m, enable := enable, state := .down, dsrFilter := if q.dsrInput then some 10 else none } := by
  have hl := h.lines i
  unfold State.applyMode
  simp only [h.state, h.dsr, Bool.and_false, Bool.false_eq_true, if_false, reduceCtorEq]
  unfold State.modLine
  refine congrArg (s.setLineRec i) ?_
  rw [hl]
  simp [PayLine.clearReceive, PayLine.reset, Config.dsrFilterMs]

/-! ### What the part in start-up keeps -/

/-- What start-up looks at but for lines and tenders is as it was. -/
structure SameStartUp (s t : State) : Prop where
  part   : t.part = s.part
  handed : t.link.handed = s.link.handed
  port   : t.store.port = s.store.port
  links  : ∀ e, (t.engine e).link = (s.engine e).link
  bus    : t.bus = s.bus

theorem SameStartUp.refl (s : State) : SameStartUp s s := ⟨rfl, rfl, rfl, fun _ => rfl, rfl⟩

theorem SameStartUp.trans {r s t : State} (h : SameStartUp r s) (k : SameStartUp s t) : SameStartUp r t :=
  ⟨k.part.trans h.part, k.handed.trans h.handed, k.port.trans h.port, fun e => (k.links e).trans (h.links e), k.bus.trans h.bus⟩

theorem SameStartUp.withParams (s : State) (q : Params) : SameStartUp s { s with params := q } :=
  ⟨rfl, rfl, rfl, fun _ => rfl, rfl⟩

theorem SameStartUp.withBook (s : State) (b : Book) : SameStartUp s { s with book := b } := ⟨rfl, rfl, rfl, fun _ => rfl, rfl⟩

theorem LineCalm.sameStartUp (k : LineCalm s t) : SameStartUp s t :=
  ⟨k.part, by rw [k.traffic], by rw [k.store], fun e => by unfold State.engine; rw [k.engines], k.bus⟩

/-- A step that leaves them as they were, and lines and tenders at rest. -/
theorem InStartUp.keep (h : InStartUp s) (k : SameStartUp s t) (hm : MoneyAtRest s → MoneyAtRest t) : InStartUp t :=
  ⟨by rw [k.handed]; exact h.handed, k.port.trans h.port, fun e => by rw [k.links]; exact h.links e, by rw [k.bus]; exact h.claims,
    by rw [k.bus]; exact h.loads, by rw [k.bus, k.part]; exact h.held, fun x => hm (h.atRest (by rw [k.part, k.bus] at x; exact x))⟩

/-- On a free bus with RESET_N released the lines and the tenders no longer matter. -/
theorem InStartUp.free (h : InStartUp s) (hc : s.bus.current = none) (hr : s.part.inReset = false) (k : SameStartUp s t) :
    InStartUp t :=
  ⟨by rw [k.handed]; exact h.handed, k.port.trans h.port, fun e => by rw [k.links]; exact h.links e, by rw [k.bus]; exact h.claims,
    by rw [k.bus]; exact h.loads, by rw [k.bus, k.part]; exact h.held, fun x => by
      rw [k.part, k.bus, hr, hc] at x; simp at x⟩

/-- A new state of the Order Link that hands over IDENTIFY PART at most. -/
theorem InStartUp.withLink (h : InStartUp s) (l : OrderLink) (hl : ∀ i, l.handed = some i → i = .identifyPart) :
    InStartUp { s with link := l } :=
  ⟨hl, h.port, h.links, h.claims, h.loads, h.held, fun k => (h.atRest k).keep rfl rfl⟩

theorem InStartUp.respond (h : InStartUp s) {x p} : InStartUp (s.respond x p) := h.withLink _ fun _ k => by cases k

theorem InStartUp.setCondition (h : InStartUp s) {c} : InStartUp (s.setCondition c) := h.withLink _ h.handed

theorem InStartUp.shiftFiller (h : InStartUp s) : InStartUp s.shiftFiller := h.withLink _ h.handed

theorem InStartUp.shiftOut (h : InStartUp s) : InStartUp s.shiftOut := by
  unfold State.shiftOut; dsimp only; split
  · exact h.withLink _ h.handed
  · exact h.shiftFiller

theorem InStartUp.restartEffect (h : InStartUp s) : InStartUp s.restartEffect := by
  unfold State.restartEffect; split
  · exact h.withLink _ h.handed
  · exact h

theorem InStartUp.beginFrame (h : InStartUp s) : InStartUp s.beginFrame := InStartUp.restartEffect (h.withLink _ h.handed)

theorem InStartUp.takeHanded (h : InStartUp s) {i} : InStartUp (s.takeHanded i) := h.withLink _ fun _ k => by cases k

/-- The arbiters of the sheet links find no engine to serve. -/
theorem InStartUp.dispatch (h : InStartUp s) : s.dispatch = s := dispatch_eq_self fun e => eligible_of_link (h.links e)

/-- The arbiters of the store port and the card links find nothing to grant. -/
theorem InStartUp.grantAll (h : InStartUp s) (hs : s.part.started = false) : s.grantAll = s := by
  have hr : s.running = false := by simp [State.running, hs]
  have hp : s.settlePort = s := by
    unfold State.settlePort; rw [h.port]; rfl
  unfold State.grantAll
  simp only [hp, hr, Bool.false_eq_true, if_false]

/-- A request other than IDENTIFY PART is turned away in start-up. -/
theorem InStartUp.arrive (h : InStartUp s) (hs : s.part.started = false) {i : Instr} (hi : i ≠ .identifyPart) :
    ∃ t, s.arrive i = .turned t ∧ InStartUp t ∧ t.part = s.part := by
  have hh : ¬ (s.link.state = .working ∧ s.link.handed = some i) := fun k => hi (h.handed i k.2)
  unfold State.arrive
  simp only [hh, if_false, hs, hi, ne_eq, not_false_eq_true, and_self, if_true]
  split
  · exact ⟨s, rfl, h, rfl⟩
  · split
    · exact ⟨s, rfl, h, rfl⟩
    · split
      · exact ⟨s, rfl, h, rfl⟩
      · exact ⟨_, rfl, h.shiftFiller.setCondition, rfl⟩
      · exact ⟨_, rfl, h.beginFrame.shiftFiller.respond, State.beginFrame_part s⟩
      · exact ⟨_, rfl, h.beginFrame.shiftFiller.respond, State.beginFrame_part s⟩

/-- What a request other than IDENTIFY PART leaves behind in start-up, with or without the grants that follow it. -/
theorem InStartUp.request (h : InStartUp s) (hs : s.part.started = false) {i : Instr} (hi : i ≠ .identifyPart) (w : State → State) :
    InStartUp (s.request i w) ∧ InStartUp (s.request i w).grantAll := by
  obtain ⟨t, ha, ht, hp⟩ := h.arrive hs hi
  unfold State.request
  rw [ha]
  exact ⟨ht, by rw [ht.grantAll (by rw [hp]; exact hs)]; exact ht⟩

/-- What a request finds at the link, taken or turned away, start-up keeps. -/
theorem InStartUp.taken (h : InStartUp s) (i : Instr) : match s.arrive i with
    | .taken t => InStartUp t
    | .turned t => InStartUp t := by
  have hb : InStartUp s.beginFrame.shiftFiller := h.beginFrame.shiftFiller
  unfold State.arrive
  by_cases h1 : s.part.inReset = true
  · simp only [h1, if_true]; exact h
  · simp only [h1]
    by_cases h2 : s.link.state = .working ∧ s.link.handed = some i
    · simp only [h2, and_self, if_true]; exact h.takeHanded
    · simp only [h2, if_false]
      by_cases hc : s.link.selected = false
      · simp only [hc, if_true]; exact h
      · simp only [hc]
        by_cases h3 : s.part.started = false ∧ i ≠ .identifyPart
        · cases s.link.state <;> simp [h3] <;> first | exact h | exact h.shiftFiller.setCondition | exact hb.respond
        · by_cases h4 : i.lengthSuits = false
          · cases s.link.state <;> simp [h3, h4] <;> first | exact h | exact h.shiftFiller.setCondition | exact hb.respond
          · cases s.link.state <;> simp [h3, h4] <;> first | exact h | exact h.shiftFiller.setCondition | exact hb.takeHanded

/-- IDENTIFY PART is answered in start-up too. -/
theorem InStartUp.answers (h : InStartUp s) (i : Instr) (x : Status) (p : State → List Byte) :
    InStartUp (s.request i fun u => u.respond x (p u)) := by
  have k := h.taken i
  unfold State.request
  cases he : s.arrive i with
  | taken u => rw [he] at k; exact k.respond
  | turned u => rw [he] at k; exact k

/-! ### Bytes at the host's port -/

theorem InStartUp.judgeRequest (h : InStartUp s) (hs : s.part.started = false) {code : Byte} {length : Word16} {payload : List Byte}
    {crc : Word16} : InStartUp (s.judgeRequest code length payload crc) := by
  unfold State.judgeRequest State.refuse
  split
  · exact h.respond
  · split
    · exact h.respond
    · split
      · exact h.respond
      · next hc =>
        have hcode : code = 0x01 := by simpa [hs] using hc
        subst hcode
        split
        · exact h.respond
        · split
          · next i hi =>
            refine h.withLink _ fun j k => ?_
            cases payload with
            | nil => exact (Option.some.inj k).symm.trans (Option.some.inj hi).symm
            | cons a l => cases hi
          · exact h.respond

theorem InStartUp.judgeFrame (h : InStartUp s) (hs : s.part.started = false) {l : List Byte} : InStartUp (s.judgeFrame l) := by
  have k : InStartUp { s with link := { s.link with buffer := [] } } := h.withLink _ h.handed
  unfold State.judgeFrame; dsimp only; split
  · exact k.judgeRequest hs
  · exact k

theorem InStartUp.takeByte (h : InStartUp s) (hs : s.part.started = false) {b : Byte} : InStartUp (s.takeByte b) := by
  unfold State.takeByte; dsimp only; repeat' split
  · exact h
  · exact h.withLink _ h.handed
  · exact h.judgeFrame hs
  · exact h.withLink _ h.handed

theorem InStartUp.clockByte (h : InStartUp s) (hs : s.part.started = false) {b : Byte} : InStartUp (s.clockByte b) := by
  have hp : s.shiftOut.part = s.part := by unfold State.shiftOut; dsimp only; split <;> rfl
  unfold State.clockByte; dsimp only; repeat' split
  · exact h.shiftOut.beginFrame
  · exact h.shiftOut
  · exact h.shiftOut.beginFrame
  · exact h.shiftOut
  · exact h.shiftOut.takeByte (by rw [hp]; exact hs)
  · exact h.shiftOut
  · exact h.shiftOut.setCondition

theorem InStartUp.csRises (h : InStartUp s) : InStartUp s.csRises := by
  unfold State.csRises; dsimp only; repeat' split
  · exact h.withLink _ h.handed
  · refine InStartUp.respond ?_
    exact h.withLink _ h.handed
  · refine InStartUp.restartEffect ?_
    exact h.withLink _ h.handed
  · exact h.withLink _ h.handed

/-! ### The events of a line -/

/-- DSR_CHANGE moves the input of a line at rest alone. -/
theorem MoneyAtRest.dsrTakes (h : MoneyAtRest s) (i : Fin 4) (samples active : Bool) :
    MoneyAtRest (s.modLine i (PayLine.dsrTakes samples active)) :=
  h.modLine (by unfold PayLine.dsrTakes; simp [h.mode])

/-- CTS_CHANGE moves the input of a line at rest alone. -/
theorem MoneyAtRest.ctsTakes (h : MoneyAtRest s) (i : Fin 4) (live active : Bool) :
    MoneyAtRest (s.modLine i fun p => if live then { p with cts := active }.beginDue else { p with cts := active }) :=
  h.modLine (by unfold PayLine.beginDue; simp only [h.state, reduceCtorEq, false_and, if_false]; split <;> rfl)

/-- An event whose condition fails on lines at rest: it leaves the part in start-up whether the lines are at rest or not. -/
theorem InStartUp.event (h : InStartUp s) {c : Bool} {f : State → State} (hf : LineCalm s (f s)) (hc : MoneyAtRest s → c = false) :
    InStartUp (s.whenever c f) := by
  unfold State.whenever; split
  · next k => exact h.keep hf.sameStartUp fun m => by rw [hc m] at k; cases k
  · exact h

theorem InStartUp.reply (h : InStartUp s) {i k q} : InStartUp (s.reply i k q) :=
  h.event (MoneyCalm.takeReply (.refl _)).toLineCalm fun m => m.hears _ _ _

/-- A line at rest has no timer to run down. -/
theorem MoneyAtRest.tick (h : MoneyAtRest s) : MoneyAtRest s.tick := by
  unfold State.tick; split
  · exact h
  · refine ⟨fun i => ?_, by simp only [h.tenders]; rfl⟩
    have hl : ∀ u : State, u.lines = s.lines.map PayLine.tick → u.line i = (s.line i).tick := by
      intro u hu; unfold State.line; rw [hu]; exact Vector.getElem_map ..
    rw [hl _ rfl]
    unfold PayLine.tick
    rw [h.lines i]; rfl

theorem InStartUp.tick (h : InStartUp s) : InStartUp s.tick := by
  have hm := h.atRest
  by_cases hr : s.part.inReset = true
  · have : s.tick = s := by unfold State.tick; rw [if_pos hr]
    rw [this]; exact h
  · have he : ∀ e, (s.tick.engine e).link = (s.engine e).link := by
      intro e
      have hl : s.tick.engine e = (s.engine e).tick := by
        unfold State.tick State.engine; rw [if_neg hr]; exact Vector.getElem_map ..
      rw [hl]; rfl
    have ht : ∀ b : Bus, b.tick.claims = b.claims ∧ b.tick.current = b.current := by
      intro b; unfold Bus.tick; split <;> exact ⟨rfl, rfl⟩
    have hb : s.tick.bus = s.bus.tick := by unfold State.tick; rw [if_neg hr]
    have hp : s.tick.part = s.part := by unfold State.tick; rw [if_neg hr]
    have hs : s.tick.store.port = s.store.port := by unfold State.tick; rw [if_neg hr]
    have hl : s.tick.link = s.link := by unfold State.tick; rw [if_neg hr]
    exact ⟨by rw [hl]; exact h.handed, hs.trans h.port, fun e => by rw [he]; exact h.links e, by rw [hb, (ht _).1]; exact h.claims,
      by rw [hb, (ht _).2]; exact h.loads, fun k => by rw [hp] at k; exact absurd k hr,
      fun k => (h.atRest (by rw [hp, hb, (ht _).2] at k; exact k)).tick⟩

/-! ### Power-on, the load and the pin reset -/

theorem powerUp_atRest (s : State) (b : Bool) : MoneyAtRest (s.powerUp b) := by
  refine ⟨fun i => ?_, rfl⟩
  have hl : (s.powerUp b).line i = { PayLine.reset with dsrInput := (s.line i).dsrInput, cts := (s.line i).cts } := by
    show (Vector.zipWith _ (Vector.replicate 4 PayLine.reset) s.lines)[i] = _
    fin_cases i <;> simp [State.line]
  rw [hl]

theorem powerUp_engine (s : State) (b : Bool) (e : Fin 3) :
    (s.powerUp b).engine e = { Engine.reset with presInput := (s.engine e).presInput } := by
  show (Vector.zipWith (fun a b : Engine => { a with presInput := b.presInput }) (Vector.replicate 3 Engine.reset) s.engines)[e] = _
  fin_cases e <;> simp [State.engine]

/-- Every block stands as start-up has it right after power-on. -/
theorem powerUp_inStartUp (s : State) (b : Bool) : InStartUp (s.powerUp b) where
  handed _ k := nomatch k
  port := rfl
  links e := by rw [powerUp_engine]; simp [Engine.reset]
  claims := by cases b <;> rfl
  loads := by cases b <;> simp [State.powerUp, State.withInputsOf, State.reset, Bus.reset]
  held k := by cases b with
    | false => exact nomatch (k : false = true)
    | true => rfl
  atRest _ := powerUp_atRest s b

/-- The machine right after reset stands as start-up has it. -/
theorem reset_inStartUp : InStartUp State.reset where
  handed _ k := nomatch k
  port := rfl
  links e := by fin_cases e <;> simp [State.engine, State.reset, Engine.reset]
  claims := rfl
  loads := Or.inr (Or.inl rfl)
  held k := nomatch (k : false = true)
  atRest _ := ⟨fun i => by fin_cases i <;> simp [State.line, State.reset, PayLine.reset], rfl⟩

/-- Start-up begins from the beginning at the release of RESET_N. -/
theorem InStartUp.beginStartUp (h : InStartUp s) (hr : s.part.inReset = true) : InStartUp s.beginStartUp := by
  have hm := h.atRest (Or.inl hr)
  have hb : s.beginStartUp.bus = { s.bus with current := some .loadOption, claims := [], writeLeft := none, ackWindow := none } := by
    unfold State.beginStartUp State.claimBus Bus.serve Bus.begin
    simp [h.claims, h.held hr]
  refine ⟨h.handed, h.port, h.links, by rw [hb], by rw [hb]; simp, fun k => (by cases k), fun _ => hm.keep rfl rfl⟩

/-- With RESET_N released the bus is free after the end of a transfer. -/
theorem InStartUp.endTransfer (h : InStartUp s) (hr : s.part.inReset = false) : InStartUp s.endTransfer :=
  ⟨h.handed, h.port, h.links, h.claims, Or.inl rfl, fun _ => rfl, fun k => by
    rcases k with k | k
    · exact absurd k (by rw [show s.endTransfer.part = s.part from rfl, hr]; simp)
    · exact absurd rfl k⟩

theorem InStartUp.setBusFault (h : InStartUp s) {f} : InStartUp (s.setBusFault f) :=
  ⟨h.handed, h.port, h.links, h.claims, h.loads, h.held, fun k => (h.atRest k).keep rfl rfl⟩

theorem InStartUp.stopStuck (h : InStartUp s) : InStartUp s.stopStuck :=
  ⟨h.handed, h.port, h.links, by
    show s.bus.claims.filter _ = []
    rw [h.claims]; rfl, h.loads, h.held, fun k => (h.atRest k).keep rfl rfl⟩

theorem InStartUp.busFailure (h : InStartUp s) {x} : InStartUp (s.busFailure x) := by
  unfold State.busFailure State.busStuck State.pollStuck State.noteStuck; repeat' split
  · exact h
  · exact h.setBusFault
  · exact h.setCondition.setBusFault
  · exact h.setCondition.setBusFault.stopStuck

/-- Start-up that ends has ended. -/
theorem endStartUp_started (s : State) : s.endStartUp.part.started = true := by
  have k : Calm ({ s with part := { s.part with started := true } } : State) s.endStartUp := by
    unfold State.endStartUp
    exact (((Calm.refl _).setCondition.trans (StoreCalm.startPatrol (.formPools (.refl _))).toCalm).trans
      (Calm.beginPolling (.evaluateHolds (.sampleInputs (.refl _)))))
  rw [k.part]

/-- Start-up ends here or goes on. -/
theorem InStartUp.tryEndStartUp (h : InStartUp s) : AwaitsLoad s.tryEndStartUp := by
  unfold State.tryEndStartUp; split
  · exact .of_started (endStartUp_started _)
  · exact fun _ => h

/-- The load ends, and start-up with it or not. -/
theorem InStartUp.loadDone (h : InStartUp s) (o : LoadOutcome) : AwaitsLoad (s.loadDone o) :=
  InStartUp.tryEndStartUp ⟨h.handed, h.port, h.links, h.claims, h.loads, h.held, fun k => (h.atRest k).keep rfl rfl⟩

/-- The store has been initialised, and start-up ends with it or not. -/
theorem InStartUp.initDone (h : InStartUp s) : AwaitsLoad { s with part := { s.part with initDone := true } }.tryEndStartUp :=
  InStartUp.tryEndStartUp ⟨h.handed, h.port, h.links, h.claims, h.loads, h.held, fun k => (h.atRest k).keep rfl rfl⟩

theorem InStartUp.loadUnanswered (h : InStartUp s) (x : BusResult) : AwaitsLoad (s.loadUnanswered x) :=
  InStartUp.loadDone h.busFailure.setCondition _

/-- The option byte has been read on a bus that is free now: the image's transfer begins, or the load ends. -/
theorem InStartUp.optionTaken (h : InStartUp s) (hc : s.bus.current = none) (hr : s.part.inReset = false) (hm : MoneyAtRest s)
    (b : Byte) : AwaitsLoad (s.optionTaken b) := by
  unfold State.optionTaken; split
  · intro _
    have hb : ({ s with loader := { state := .readingImage, option := some b, outcome := none } } : State).claimBus .loadImage =
        { s with
          loader := { state := .readingImage, option := some b, outcome := none }
          bus := { s.bus with current := some .loadImage, claims := [], writeLeft := none, ackWindow := none } } := by
      unfold State.claimBus Bus.serve Bus.begin
      simp [h.claims, hc]
    rw [hb]
    exact ⟨h.handed, h.port, h.links, rfl, Or.inr (Or.inr rfl), fun k => absurd (hr.symm.trans k) (by decide), fun _ => hm.keep rfl rfl⟩
  · exact h.loadDone _

theorem sameStartUp_applyEngineEntry (s : State) (image : List Byte) (e : Fin 3) : SameStartUp s (s.applyEngineEntry image e) := by
  unfold State.applyEngineEntry; dsimp only
  refine ⟨by simp, by rw [modEngine_rest], by simp, fun x => ?_, by simp⟩
  rw [engine_modEngine]; split
  · next hx => rw [hx]
  · rfl

theorem sameStartUp_applyImage (s : State) (long : Bool) (image : List Byte) : SameStartUp s (s.applyImage long image) := by
  have h0 : SameStartUp s { s with params := applyParams image s.params } := .withParams s _
  have h1 := forEach_keeps (P := SameStartUp s) (f := State.applyLineEntry image) (fun i u k => k.trans (by
      unfold State.applyLineEntry; dsimp only; split
      · exact LineCalm.sameStartUp (.applyMode (.refl _))
      · exact .refl _)) (List.finRange 4) h0
  have h2 := forEach_keeps (P := SameStartUp s) (f := State.applyEngineEntry image)
    (fun e u k => k.trans (sameStartUp_applyEngineEntry u image e)) (List.finRange 3) h1
  unfold State.applyImage; dsimp only; split
  · exact h2.trans (.withBook _ _)
  · exact h2

/-- The image has been read on a bus that is free now: it is applied or refused, and the load ends. -/
theorem InStartUp.judgeImage (h : InStartUp s) (hc : s.bus.current = none) (hr : s.part.inReset = false) (long : Bool)
    (image : List Byte) : AwaitsLoad (s.judgeImage long image) := by
  have k := sameStartUp_applyImage s long image
  unfold State.judgeImage; split
  · exact InStartUp.loadDone (h.free hc hr k) _
  · exact InStartUp.loadDone h.setCondition _

end

end Sys2Proof.Machine
end

