-- ==== Sys2Proof/Tests/Slice0.lean ====
section
/-! SUPPORT. Tests: small states on which the hypotheses of each statement hold together, and the worked examples of the manual. -/

namespace Sys2Proof.Tests

open Sys2Proof Sys2Proof.Machine

set_option Elab.async false

/-! ### Small states -/

/-- The part after start-up, CS_N low: nothing listed, every line UNSET, every engine ABSENT, the bus idle. -/
def live : State :=
  { State.reset with
    part := ⟨false, true, true⟩, link := { State.reset.link with selected := true }, bus := Bus.reset
    loader := ⟨.done, none, some .loadedLong⟩ }

/-- The same while RESET_N is asserted. -/
def held : State := { live with part := ⟨true, true, true⟩ }

/-- The same during start-up, with store initialisation still under way. -/
def starting : State := { State.reset with link := live.link }

def onLink (l : OrderLink) : State := { live with link := l }
def onStore (m : Store) : State := { live with store := m }
def onPort (a : Access) (s : State) : State :=
  { s with store := { s.store with port := { s.store.port with busy := some a } } }
def withFrame (n : Nat) (f : Frame) (s : State) : State := { s with store := { s.store with frames := put n f s.store.frames } }
def withSlot (t : Slot) (s : State) : State := { s with cards := { s.cards with slots := s.cards.slots.set 0 t } }
def withCardLink (l : CardLink) (s : State) : State := { s with cards := { s.cards with links := s.cards.links.set 0 l } }
def withOrder (n : Nat) (o : Order) (s : State) : State := { s with book := { s.book with orders := put n o s.book.orders } }
def withPrice (p : Price) (s : State) : State := { s with book := { s.book with prices := s.book.prices.set 0 p } }
def withLine (p : PayLine) (s : State) : State := { s with lines := s.lines.set 0 p }
def withTender (n : Nat) (r : Tender) (s : State) : State :=
  { s with tenders := { s.tenders with tenders := put n r s.tenders.tenders } }
def withEngine (r : Engine) (s : State) : State := { s with engines := s.engines.set 0 r }
def allDisabled (s : State) : State :=
  { s with engines := s.engines.map fun r => { r with enabled := false } }

/-- An OPEN host frame of 16 bytes on page 5. -/
def openFrame : Frame := { newFrame .host 16 with state := .open, extent := [5] }
/-- The same, sealed. -/
def readyFrame : Frame := { openFrame with state := .ready, fillMark := some 16 }
/-- A card frame of slot 0, of 512 bytes on page 5. -/
def cardFrame : Frame := { newFrame (.card 0 1 0) 512 with state := .queued, extent := [5] }

/-- A READY slot under session 1 with a card of 100 blocks. -/
def readySlot : Slot :=
  { Slot.reset with
    state := .ready, session := 1, capacity := some 100, identity := some (List.replicate 16 0), detect := true, power := true }

/-- One copy of frame 0, at 2 units. -/
def aLine : OrderLine :=
  { number := 1, frame := 0, product := 0, unitPrice := 2, fit := .fill, quantity := 1, delivered := 0, failed := 0, withdrawn := 0,
    inFlight := 0, reprintsUsed := 0, lastFault := none, stopped := false }
/-- An OPEN order of that line at station 0. -/
def anOrder : Order := { newOrder 100000 0 .standard 2 (some 600000) with lines := [aLine], nextLine := some 2, valueDue := 2 }

/-- A line UP at 9600 baud, 8 data bits, no parity, 1 stop bit. -/
def upLine : PayLine :=
  { PayLine.reset with mode := some ⟨9600, 8, .none, 1⟩, enable := true, state := .up, dsr := true, dsrInput := true }

/-- A tender of order 0, in exchange on line 0 with its sale sent. -/
def aTender : Tender :=
  { newTender 0 0 100000 2 with
    exchange := .inExchange, phase := some .awaiting, saleSent := true, messageBegun := true, replyDeadline := some 180000 }

/-- Line 0 UP and in service, tender 0 in exchange on it, order 0 with it. -/
def paying (o : Order) (r : Tender) : State :=
  let s := withTender 0 r (withOrder 0 { o with tender := some 0 } (withLine upLine live))
  { s with tenders := { s.tenders with inService := s.tenders.inService.set 0 true } }

/-- An engine in HUNTING, and one ONLINE with media kind 1. -/
def huntingEngine : Engine :=
  { Engine.reset with
    link := .hunting, tx := .mark, rx := .hunt, helloTimer := some 500, present := true, presInput := true, control := [.hello] }
def onlineEngine : Engine :=
  { Engine.reset with
    link := .online, tx := .mark, rx := .hunt, silenceTimer := some 2000, present := true, presInput := true, media := 1
    sheetsRemaining := 10, credit := 2, bufferFree := 2 }
/-- A sheet of order 0, line 1, frame 0. -/
def aSheet : Sheet :=
  { tag := 1, order := 0, line := 1, frame := 0, state := .sent, media := 1, fit := .fill, payloadLength := 16, abortSent := false }
/-- A PRINTING order with one copy of line 1 in flight and one of line 2 waiting. -/
def printing : Order :=
  { anOrder with
    state := .printing, admission := some 1, idleDeadline := none, valueDue := 4
    lines := [{ aLine with inFlight := 1 }, { aLine with number := 2 }] }
/-- An engine on which that copy is in flight; no engine may take a sheet. -/
def flying (r : Engine) : State :=
  withOrder 0 printing (withFrame 0 readyFrame (allDisabled (withEngine { r with sheets := [aSheet], nextTag := 2 } live)))

/-! ### States for the Order Link, start-up and the stores -/

def selected : State := live
/-- The same with CS_N high. -/
def unselected : State := onLink State.reset.link
def receiving : State := onLink { live.link with selected := true, state := .receiving }
def answered : OrderLink := { live.link with selected := true, state := .answered, response := some ⟨.ok, []⟩ }

/-- Start-up with the load finished, and with the image read in progress. -/
def loaded : State := { starting with bus := Bus.reset, loader := ⟨.done, some 0xFF, some .notAsked⟩ }
def reading : State :=
  { starting with
    bus := { Bus.reset with current := some .loadImage }
    loader := ⟨.readingImage, some 0x01, none⟩ }
/-- RESET_N asserted before start-up has ended. -/
def dark : State := { starting with part := ⟨true, false, false⟩, bus := Bus.reset }

/-- The example image of section 10.3 from 0x001 on: label, check byte, lines, engines, parameters, fill. -/
def shortImage : List Byte :=
  List.replicate 14 0 ++ [0xFE] ++ [0xC1, 0x01, 0xC1, 0x01, 0xC1, 0x01, 0xC1, 0x01] ++ [0x1F, 0x1F, 0x1F] ++
  [0x40, 0x01, 0x00, 0x04, 0x00, 0x32, 0x00, 0x02, 0x58, 0x02, 0x00, 0x01, 0x86, 0xA0, 0x00, 0xB4, 0x0F, 0x00, 0x78, 0x0F, 0x46, 0x55,
    0x32, 0x05, 0x13, 0x88, 0x03, 0xE8] ++ List.replicate 25 0

/-- Accesses of several ranks wait for the port while it is free. -/
def waiting (starvation : Nat) : State :=
  onStore { live.store with port := { live.store.port with
    waiting := [.scrub 4, .migration 5 6 0, .raster 0 5 0 16], starvation := starvation } }
def waitingLow (starvation : Nat) : State :=
  onStore { live.store with port := { live.store.port with
    waiting := [.hostRead 0 0 1, .migration 5 6 0], starvation := starvation } }
/-- A block write for a frame that is no longer there waits. -/
def blockWaits : State := onStore { live.store with port := { live.store.port with waiting := [.block 0 9 0 [] false] } }
/-- All 1024 frame numbers in use. -/
@[irreducible] def everyFrame : List (Nat × Frame) := (List.range 1024).map fun n => (n, openFrame)
def crowded : State := onStore { live.store with frames := everyFrame }
def fullFrame : Frame := { openFrame with fillMark := some 16 }
def framed : State := withFrame 0 readyFrame live
def patrolling : State := onStore { framed.store with scrubTimer := some 1, patrol := .running }
def migrating (bursts : Nat) : State :=
  onPort (.migration 5 6 (bursts * 4096)) (onStore { framed.store with migration := some ⟨5, 6, 0, bursts⟩ })

/-! ### States for the cards -/

def settlingSlot : State := withSlot { Slot.reset with detect := true, state := .settling, debounce := some 50 } live
def faultedSlot : State := withSlot { Slot.reset with detect := true, state := .faulted } live
def carded : State := withSlot readySlot live
def queued : State := withFrame 0 cardFrame (withSlot { readySlot with importQueue := [0] } live)
def progress : Progress := ⟨0, 0, .running, 1, 0, false⟩
/-- Frame 0 is FILLING on slot 0 while link 0 does this work. -/
def filling (p : Progress) (w : LinkWork) : State :=
  withCardLink { CardLink.reset with work := w, blockWait := some 5 }
    (withFrame 0 { cardFrame with state := .filling } (withSlot { readySlot with importQueue := [0], progress := some p } live))
def identifying (w : LinkWork) : State :=
  withCardLink { CardLink.reset with work := w, responseWait := some 5 }
    (withSlot { Slot.reset with detect := true, state := .identifying, power := true } live)
/-- Success tokens of a WAKE and of an IDENTIFY of a card of 1 block. -/
def okToWake : List Byte := [0xA0, 0x01, 0xA1]
def okToIdentify : List Byte := [0xA0, 0x02, 0, 0, 0, 1] ++ List.replicate 16 0 ++ [0xA3]

/-! ### States for orders and money -/

def booked : State := { live with book := { live.book with orders := (List.range 64).map fun n => (n, anOrder) } }
def lastFree : State := { live with book := { live.book with orders := (List.range 63).map fun n => (n, anOrder) } }
/-- Order 0 OPEN with one line, everything LOCK ORDER asks for at hand. -/
def selling : State := withOrder 0 anOrder (withPrice ⟨true, 1, 2⟩ (withLine upLine framed))
def tendered : State :=
  { selling with tenders := { selling.tenders with tenders := (List.range 32).map fun n => (n, aTender) } }
def serving : State := { selling with tenders := { selling.tenders with inService := selling.tenders.inService.set 0 true } }
def lockedOrder : Order := { anOrder with state := .locked, idleDeadline := none }
def settlingOrder : Order := { printing with state := .settling, valueAuthorized := 4, valueDelivered := 2 }
/-- Tender 0 in exchange for order 0, with this purpose and pending purpose. -/
def exchanging (o : Order) (purpose : OutKind) (pending : Option OutKind) : State :=
  paying o { aTender with purpose := purpose, pendingPurpose := pending, amountToCapture := some 2 }
def exchanged (purpose : OutKind) (pending : Option OutKind) : Tender :=
  { aTender with purpose := purpose, pendingPurpose := pending, amountToCapture := some 2 }
def stuckTender : Tender :=
  { aTender with
    purpose := .enquire, pendingPurpose := some .sale, exchange := .none, phase := none, replyDeadline := none, unresolved := true }
def aReference : List Byte := [0x41, 0x42, 0x31, 0x32, 0x43, 0x44, 0x33, 0x34]
/-- A message of two characters of which so many are sent. -/
def sale : OutMessage := ⟨.sale, 0, [1, 2], true⟩
def sending (p : PayLine) : State :=
  withLine p (paying lockedOrder { aTender with
    phase := some .sending, saleSent := false, messageBegun := false, replyDeadline := none })

/-! ### States for engines, rasters and the bus -/

/-- The copy in flight on an engine in HUNTING is UNKNOWN. -/
def unknownSheet : Sheet := { aSheet with state := .unknown }
def lostTrack : State :=
  withEngine { huntingEngine with enabled := false, sheets := [unknownSheet], nextTag := 2, relinkTimer := some 5 }
    (flying huntingEngine)
/-- An engine that only the HOST hold keeps from the one pair of the Ready List. -/
def releasable : State :=
  { withOrder 0 { printing with lines := [aLine] }
      (withPrice ⟨true, 1, 2⟩ (withFrame 0 readyFrame
        (withEngine { onlineEngine with holds := ⟨true, false, false, false⟩ } (allDisabled live)))) with ready := [(0, 1)] }
/-- A burst of channel 0 is in progress for a sheet that is STREAMING. -/
def rastering (phase : ChannelPhase) (path : Option PartFrame) : State :=
  onPort (.raster 0 5 0 4096) (withEngine { onlineEngine with
    sheets := [{ aSheet with state := .streaming }]
    nextTag := 2
    enabled := false
    sheetPath := path
    channel := { Channel.reset with phase := phase, sheet := some 1, frame := 0, length := 20000, readingPage := some 5 } }
      (flying onlineEngine))
def polling (void : Bool) : State :=
  { live with thermal := { live.thermal with state := .running }, bus := { live.bus with current := some (.poll 0 void) } }
def claiming (c : Claim) : State := { live with bus := { live.bus with current := some c } }

/-! ### Every statement's hypotheses are met together: the queue, the clock and the invariants -/

/-- A part with every line as at reset. -/
theorem lines_at_reset {s : State} (h : s.lines = State.reset.lines) (i : Fin 4) :
    s.line i = { PayLine.reset with dsrInput := (s.line i).dsrInput, cts := (s.line i).cts } := by
  unfold State.line; rw [h]; fin_cases i <;> rfl

/-- A part that no engine is linked to, with an idle store, without tenders and with the loader alone at the bus. -/
theorem awaits {s : State} (handed : s.link.handed = none) (store : s.store = State.reset.store)
    (engines : s.engines = State.reset.engines) (lines : s.lines = State.reset.lines) (tenders : s.tenders = State.reset.tenders)
    (claims : s.bus.claims = [])
    (loads : s.bus.current = none ∨ s.bus.current = some .loadOption ∨ s.bus.current = some .loadImage)
    (held : s.part.inReset = true → s.bus.current = none) : AwaitsLoad s := fun _ =>
  { handed := fun i h => by rw [handed] at h; cases h
    port := by rw [store]; rfl
    links := fun e => by unfold State.engine; rw [engines]; fin_cases e <;> decide
    claims := claims
    loads := loads
    held := held
    atRest := fun _ => ⟨lines_at_reset lines, tenders⟩ }

theorem starting_awaits : AwaitsLoad starting :=
  awaits rfl rfl rfl rfl rfl rfl (Or.inr (Or.inl rfl)) fun h => nomatch (h : false = true)

theorem reading_awaits : AwaitsLoad reading :=
  awaits rfl rfl rfl rfl rfl rfl (Or.inr (Or.inr rfl)) fun h => nomatch (h : false = true)

theorem witness_EmptyQueueLetsOneMillisecondPass :
    (live.pending = [] ∧ live.part.inReset = false) ∧ (held.pending = [] ∧ held.part.inReset = true) := by decide +kernel

theorem witness_EveryStepKeepsParametersInRange :
    (∀ p, p < 18 → paramAdmits p (live.params.get p) = true) ∧ ∃ t, step live = .next t :=
  ⟨by decide +kernel, _, rfl⟩

theorem witness_EveryStepKeepsMemoryCanonical : MemorySound live ∧ ∃ t, step live = .next t := ⟨rfl, _, rfl⟩

theorem witness_EveryStepKeepsFlagsAndTablesCanonical :
    ((FlagsSound live ∧ TablesSound live) ∧ ∃ t, step live = .next t) ∧
    ((starting.part.started = false ∧ AwaitsLoad starting) ∧ ∃ t, step { starting with pending := [.storeInitComplete] } = .next t) :=
  ⟨⟨⟨List.Pairwise.nil, List.Pairwise.nil, List.Pairwise.nil, List.Pairwise.nil⟩, _, rfl⟩, ⟨rfl, starting_awaits⟩, _, rfl⟩

/-! ### Every statement's hypotheses are met together: the counts, the queues, the copies and the pages -/

/-- Of a table of one record, only its number finds it. -/
theorem find_only {α : Type} {k n : Nat} {x y : α} (h : find n [(k, x)] = some y) : n = k ∧ y = x := by
  unfold find at h
  split at h
  · next e => exact ⟨e.symm, (Option.some.inj h).symm⟩
  · cases h

/-- A PRINTING order of two lines, the next of which has number 3. -/
def printingTwo : Order := { printing with nextLine := some 3 }

/-- Order 0 PRINTING, with a copy of line 1 in flight on engine 0 and one of line 2 waiting in the Ready List; both cite frame 0. -/
def counted : State :=
  { withOrder 0 printingTwo (withFrame 0 { readyFrame with references := 2 } (flying onlineEngine)) with ready := [(0, 2)] }

theorem counted_order {n : Nat} {o : Order} (h : counted.order n = some o) : n = 0 ∧ o = printingTwo := find_only h

theorem printing_lines : LinesSound printingTwo where
  rising := by decide
  range := by decide
  next := fun k hk => by cases hk; decide

theorem counted_idle : ∀ e, (counted.engine e).channel.phase = .idle := by decide +kernel

theorem counted_counts : CountsSound counted where
  lines := fun n o h => by rw [(counted_order h).2]; exact printing_lines
  references := fun n => match n with
    | 0 => by decide +kernel
    | _ + 1 => rfl
  pins := fun n => by
    have free : counted.channelsOn n = 0 := List.countP_eq_zero.mpr fun e _ => by simp [counted_idle e]
    rw [free]
    match n with
    | 0 => rfl
    | _ + 1 => rfl
  resting := by decide +kernel

theorem witness_EveryStepKeepsCountsRight : TablesSound counted ∧ CountsSound counted ∧ ∃ t, step counted = .next t :=
  ⟨⟨List.pairwise_singleton .., List.pairwise_singleton .., List.Pairwise.nil⟩, counted_counts, _, rfl⟩

theorem counted_line {k : Nat} {l : OrderLine} (h : printingTwo.line k = some l) :
    (k = 1 ∧ l = { aLine with inFlight := 1 }) ∨ (k = 2 ∧ l = { aLine with number := 2 }) := by
  have hm : l ∈ printingTwo.lines := List.mem_of_find?_eq_some h
  have hk : l.number = k := by simpa using List.find?_some h
  simp only [printingTwo, printing, List.mem_cons, List.not_mem_nil, or_false] at hm
  rcases hm with rfl | rfl
  · exact Or.inl ⟨hk.symm, rfl⟩
  · exact Or.inr ⟨hk.symm, rfl⟩

theorem counted_copies : CopiesSound counted where
  lines := fun n o h => by rw [(counted_order h).2]; exact printing_lines
  admitted := fun n o h _ => by rw [(counted_order h).2]; decide
  stands := fun n k => by
    constructor
    · intro h
      have h : (n, k) ∈ [(0, 2)] := h
      cases List.mem_singleton.mp h
      exact ⟨printingTwo, { aLine with number := 2 }, by decide +kernel⟩
    · rintro ⟨o, l, ho, -, hl, hw⟩
      obtain ⟨rfl, rfl⟩ := counted_order ho
      rcases counted_line hl with ⟨rfl, rfl⟩ | ⟨rfl, rfl⟩
      · exact absurd hw (by decide)
      · exact List.mem_singleton.mpr rfl
  once := by decide
  sorted := List.pairwise_singleton ..
  flying := fun n o h l hl => by
    obtain ⟨rfl, rfl⟩ := counted_order h
    revert l; decide +kernel
  sheets := fun e h hh => by
    have only : ∀ e, ∀ h ∈ (counted.engine e).sheets, h = aSheet := by decide +kernel
    rw [only e h hh]
    exact ⟨printingTwo, { aLine with inFlight := 1 }, by decide +kernel⟩

theorem witness_EveryStepKeepsCopiesInFlight : TablesSound counted ∧ CopiesSound counted ∧ ∃ t, step counted = .next t :=
  ⟨witness_EveryStepKeepsCountsRight.1, counted_copies, _, rfl⟩

/-- Tender 0 is in exchange on line 0, and tender 1 waits for it. -/
def exchangingTwo : State :=
  let s := withTender 1 { aTender with exchange := .waitingLine, phase := none, replyDeadline := none } (paying lockedOrder aTender)
  { s with tenders := { s.tenders with queues := s.tenders.queues.set 0 [1] } }

theorem exchangingTwo_tender {k : Nat} {r : Tender} (h : exchangingTwo.tender k = some r) :
    (k = 0 ∧ r = aTender) ∨ (k = 1 ∧ r = { aTender with exchange := .waitingLine, phase := none, replyDeadline := none }) := by
  match k with
  | 0 => exact Or.inl ⟨rfl, (Option.some.inj h).symm⟩
  | 1 => exact Or.inr ⟨rfl, (Option.some.inj h).symm⟩
  | _ + 2 => cases h

theorem witness_EveryStepKeepsExchangeQueues :
    TablesSound exchangingTwo ∧ ExchangesSound exchangingTwo ∧ ∃ t, step exchangingTwo = .next t := by
  refine ⟨⟨List.Pairwise.nil, List.pairwise_singleton .., by unfold Ascending; decide +kernel⟩, ⟨fun i k => ?_, by decide +kernel, ?_⟩, _, rfl⟩
  · constructor
    · intro h
      have only : ∀ i, ∀ j ∈ exchangingTwo.exchangeQueue i, i = 0 ∧ j = 1 := by decide +kernel
      obtain ⟨rfl, rfl⟩ := only i k h
      exact ⟨_, rfl, rfl, rfl⟩
    · rintro ⟨r, h, rfl, he⟩
      rcases exchangingTwo_tender h with ⟨rfl, rfl⟩ | ⟨rfl, rfl⟩
      · cases he
      · decide +kernel
  · intro j k q r hj hk _ hq hr
    rcases exchangingTwo_tender hj with ⟨rfl, rfl⟩ | ⟨rfl, rfl⟩ <;> rcases exchangingTwo_tender hk with ⟨rfl, rfl⟩ | ⟨rfl, rfl⟩
    all_goals first | rfl | exact absurd hq (by decide) | exact absurd hr (by decide)

/-- The READY frame 0 on page 5, and these pages in the Free Pool. -/
def pool (pages : List Page) : State := { framed with store := { framed.store with freePool := pages } }

theorem pool_places (pages : List Page) (p : Page) : (pool pages).placesOf p = pages.count p + ([5] : List Page).count p := rfl

/-- The part after start-up with every page but page 5 in the Free Pool. -/
def pooled : State := pool ((List.finRange 4096).erase 5)

theorem pooled_pages : PagesSound pooled where
  placed := fun _ p => by
    have free : (List.finRange 4096).count p = 1 := List.count_eq_one_of_mem (List.nodup_finRange _) (List.mem_finRange p)
    rw [pooled, pool_places, List.count_erase, free, List.count_singleton]
    split <;> rfl
  unborn := fun h => nomatch (h : true = false)
  waiting := fun n => ⟨fun h => absurd h List.not_mem_nil, fun ⟨f, hf, hw⟩ => by rw [(find_only hf).2] at hw; cases hw⟩
  empty := fun n f hf hw => by rw [(find_only hf).2] at hw; cases hw
  whole := fun n f hf => by rw [(find_only hf).2]; decide
  held := fun n f hf _ => by rw [(find_only hf).2]; decide
  access := fun a ha => by rcases ha with h | h <;> cases h
  once := ⟨List.Pairwise.nil, List.Pairwise.nil⟩
  queued := fun p hp => absurd hp List.not_mem_nil
  moving := fun m hm => nomatch hm

/-- The hypotheses hold together after start-up, and in start-up with store initialisation about to complete. -/
theorem witness_EveryStepKeepsOnePlaceForEachPage :
    (TablesSound pooled ∧ AwaitsLoad pooled ∧ PagesSound pooled ∧ ∃ t, step pooled = .next t) ∧
    (TablesSound starting ∧ AwaitsLoad starting ∧ PagesSound starting ∧
      ∃ t, step { starting with pending := [.storeInitComplete] } = .next t) := by
  refine ⟨⟨⟨List.pairwise_singleton .., List.Pairwise.nil, List.Pairwise.nil⟩, (fun h => nomatch (h : true = false)), pooled_pages, _, rfl⟩,
    ⟨List.Pairwise.nil, List.Pairwise.nil, List.Pairwise.nil⟩, starting_awaits, ?_, _, rfl⟩
  exact {
    placed := fun h => nomatch (h : false = true)
    unborn := fun _ => ⟨rfl, fun _ => rfl⟩
    waiting := fun n => ⟨fun h => absurd h List.not_mem_nil, fun ⟨_, hf, _⟩ => nomatch hf⟩
    empty := fun _ _ hf _ => nomatch hf
    whole := fun _ _ hf => nomatch hf
    held := fun _ _ hf _ => nomatch hf
    access := fun a ha => by rcases ha with h | h <;> cases h
    once := ⟨List.Pairwise.nil, List.Pairwise.nil⟩
    queued := fun p hp => absurd hp List.not_mem_nil
    moving := fun m hm => nomatch hm }

/-! ### The Order Link -/

theorem witness_RequestsReachTheirBlockOrAreTurnedAway :
    Reaches .takeChanges live ∧ Reaches .takeChanges (onLink { live.link with state := .working, handed := some .takeChanges }) ∧
    Reaches .identifyPart starting ∧ held.part.inReset = true ∧
    (onLink { live.link with state := .receiving }).link.state = .receiving ∧
    (onLink { live.link with state := .working }).link.handed ≠ some .takeChanges ∧
    (starting.link.state = .idle ∧ starting.part.started = false ∧ Instr.takeChanges ≠ .identifyPart) ∧
    (live.part.started = true ∧ (Instr.writeFrameData 0 0 []).lengthSuits = false) ∧
    (encodeRequest .takeChanges = some (0x03, []) ∧ held.arrive .takeChanges = .turned held) := by
  repeat' apply And.intro
  all_goals first | decide +kernel | rfl

theorem witness_RequestFramesAreHandedOverOrRefused :
    (onLink { live.link with selected := true }).part.inReset = false ∧
    (onLink { live.link with selected := true }).link.selected = true ∧ live.link.state = .idle ∧ live.part.started = true ∧
    (Instr.lockOrder 63).lengthSuits = true ∧ encodeRequest (.lockOrder 63) = some (0x34, [63]) := by
  repeat' apply And.intro
  all_goals decide +kernel

theorem witness_RequestFramesAreRefused :
    (receiving.part.inReset = false ∧ receiving.link.selected = true ∧ receiving.link.state = .receiving ∧
      receiving.link.overlong = false) ∧
    600 < (601 : Word16).toNat ∧
    ((0 : Word16).toNat = ([] : List Byte).length ∧ (0 : Word16) ≠ orderLinkCrc (0x03 :: (word2 0 ++ []))) ∧
    requestLengths 0xFF = none ∧ requestLengths 0x03 = some (0, 0) ∧ starting.part.started = false ∧
    ((0 : Word16) = 0 ∧ (0 : Nat) < ([0x00] : List Byte).length) := by
  repeat' apply And.intro
  all_goals decide +kernel

theorem witness_BytesAndChipSelectMoveTheLink :
    (held.part.inReset = true ∧ unselected.link.selected = false) ∧
    (selected.part.inReset = false ∧ selected.link.selected = true ∧ selected.link.state = .idle ∧ (0xFF : Byte) ≠ 0x5D) ∧
    receiving.link.state = .receiving ∧ ((onLink { selected.link with state := .receiving, overlong := true }).link.overlong = true) ∧
    ((onLink { selected.link with state := .working }).link.state = .working ∧ (0x5D : Byte) ≠ 0xFF) ∧
    ((onLink answered).link.state = .answered ∧ (onLink answered).link.response = some ⟨.ok, []⟩) := by
  repeat' apply And.intro
  all_goals decide +kernel

theorem witness_ChipSelectMoves :
    unselected.link.selected = false ∧ (receiving.link.selected = true ∧ receiving.link.state = .receiving) ∧
    ((onLink { answered with restartDue := true, shifted := 6 }).link.restartDue = true ∧
      (⟨.ok, []⟩ : Response).bytes.length ≤ (onLink { answered with restartDue := true, shifted := 6 }).link.shifted) ∧
    (selected.link.selected = true ∧ selected.link.state = .idle) := by
  repeat' apply And.intro
  all_goals decide +kernel

theorem witness_ConditionsAndChangesAreReportedAndCleared :
    (Reaches (.readConditions 0x0400) live ∧ 0x03FF < (0x0400 : Word16).toNat) ∧
    (Reaches (.readConditions 0x03FF) live ∧ (0x03FF : Word16).toNat ≤ 0x03FF) ∧ Reaches .takeChanges live := by
  repeat' apply And.intro
  all_goals decide +kernel

theorem witness_ParametersAreReadAndStored :
    (Reaches (.readParameter 18) live ∧ 17 < (18 : Byte).toNat) ∧ (Reaches (.readParameter 17) live ∧ (17 : Byte).toNat ≤ 17) ∧
    Reaches (.setParameter 18 0) live ∧ (Reaches (.setParameter 2 0) live ∧ paramRange 2 = some (1, 15) ∧ (0 : Word32).toNat < 1) ∧
    (Reaches (.setParameter 2 4) live ∧ (4 : Word32).toNat = live.params.get 2) ∧
    (Reaches (.setParameter 2 15) live ∧ (15 : Word32).toNat ≤ 15 ∧ (15 : Word32).toNat ≠ live.params.get 2) := by
  repeat' apply And.intro
  all_goals decide +kernel

theorem witness_IdentifyPartAndRestartAnswer :
    Reaches .identifyPart starting ∧ Reaches .identifyPart live ∧ Reaches .restart live := by
  repeat' apply And.intro
  all_goals decide +kernel

/-! ### Start-up and the pin reset -/

theorem witness_StoreInitCompleteEndsStartUp :
    (starting.part = ⟨false, false, false⟩ ∧ starting.loader.state ≠ .done) ∧
    (loaded.part = ⟨false, false, false⟩ ∧ loaded.loader.state = .done ∧ 0 < loaded.params.scrubInterval ∧
      loaded.thermal.state ≠ .stopped ∧ loaded.params.presentMask ≠ 0 ∧ loaded.firstPresent loaded.thermal.cursor = some 0 ∧
      loaded.bus.current = none ∧ loaded.bus.claims = []) ∧
    ({ loaded with params := { loaded.params with scrubInterval := 0, presentMask := 0 } } : State).params.presentMask = 0 := by
  decide +kernel

theorem witness_OptionReadEndJudgesTheOptionByte :
    starting.part = ⟨false, false, false⟩ ∧ starting.bus.current = some .loadOption ∧ starting.bus.claims = [] ∧
    starting.thermal.state = .idle ∧ (0xFF : Byte) ≠ 0x01 ∧ (0xFF : Byte) ≠ 0x02 := by decide +kernel

theorem witness_ImageReadEndAppliesOrRefusesTheImage :
    AwaitsLoad reading ∧
    (reading.part = ⟨false, false, false⟩ ∧ reading.loader.option = some 0x01 ∧ reading.bus.current = some .loadImage ∧
      reading.bus.claims = []) ∧
    (imageByte (0x01 :: shortImage) 0x010 / 128 = 1 ∧ imageByte (0x01 :: shortImage.set 15 0) 0x010 / 128 ≠ 1) ∧
    (shortImage.length = 79 ∧ (sumGood (0x01 :: shortImage) && rangesGood false (0x01 :: shortImage)) = true) ∧
    ((List.replicate 79 (0 : Byte)).length = 79 ∧
      (sumGood (0x01 :: List.replicate 79 0) && rangesGood false (0x01 :: List.replicate 79 0)) = false) :=
  ⟨reading_awaits, by decide +kernel⟩

theorem witness_PinResetResolvesAndItsReleaseReports :
    (starting.part.inReset = false ∧ starting.part.started = false) ∧ (live.part.inReset = false ∧ live.part.started = true) ∧
    (held.part.inReset = true ∧ held.part.started = true) ∧
    (dark.part.inReset = true ∧ dark.part.started = false ∧ dark.bus.current = none ∧ dark.bus.claims = []) := by decide +kernel

/-! ### Frames and the image store -/

theorem witness_StorePortGrantsTheBestRank :
    (onPort (.scrub 5) live).store.port.busy ≠ none ∧ live.store.port.waiting = [] ∧
    (waiting 0).store.port.choose = some (.raster 0 5 0 16) ∧ (waiting 0).isDropped (.raster 0 5 0 16) = none ∧
    ((waitingLow 32).store.port.starvation = 32 ∧ (waitingLow 32).store.port.choose = some (.migration 5 6 0)) ∧
    (blockWaits.store.port.busy = none ∧ blockWaits.store.port.choose = some (.block 0 9 0 [] false) ∧
      blockWaits.isDropped (.block 0 9 0 [] false) = some 0) := by decide +kernel

theorem witness_FramesAreCreatedAndReleased :
    (Reaches (.createFrame 0) live ∧ (0 : Word32).toNat = 0) ∧ (Reaches (.createFrame 16777217) live ∧ 16777216 < (16777217 : Word32).toNat) ∧
    (Reaches (.createFrame 16777216) live ∧ live.frame 0 = none ∧ live.store.waitList = [] ∧
      live.store.freePool.length < ((16777216 : Word32).toNat + 65535) / 65536) ∧
    (Reaches (.createFrame 1) (onStore { live.store with freePool := [5] }) ∧
      ((1 : Word32).toNat + 65535) / 65536 ≤ (onStore { live.store with freePool := [5] }).store.freePool.length) ∧
    (Reaches (.releaseFrame 0) live ∧ live.frame 0 = none) ∧
    (withFrame 0 { readyFrame with releasePending := true } live).frame 0 = some { readyFrame with releasePending := true } ∧
    (Reaches (.releaseFrame 0) (withFrame 0 readyFrame live) ∧ readyFrame.references = 0 ∧ readyFrame.pins = 0 ∧
      (withFrame 0 readyFrame live).store.migration = none) ∧
    0 < ({ readyFrame with references := 1 } : Frame).references := by
  repeat' apply And.intro
  all_goals decide +kernel

/-- A table that lists a number finds it. -/
theorem find_ne_none {α : Type} {k : Nat} {x : α} {l : List (Nat × α)} (h : (k, x) ∈ l) : find k l ≠ none := by
  induction l with
  | nil => cases h
  | cons e rest ih =>
    unfold find
    split
    · exact Option.some_ne_none _
    · next hne =>
      rcases List.mem_cons.mp h with he | hr
      · exact absurd (by rw [← he]) hne
      · exact ih hr

theorem witness_EveryFrameNumberTaken : Reaches (.createFrame 1) crowded ∧ ∀ k, k < 1024 → crowded.frame k ≠ none := by
  refine ⟨⟨rfl, Or.inr ⟨rfl, Or.inl rfl, Or.inl rfl, rfl⟩⟩, fun k hk => ?_⟩
  have listed : (k, openFrame) ∈ everyFrame := by unfold everyFrame; exact List.mem_map.mpr ⟨k, List.mem_range.mpr hk, rfl⟩
  exact find_ne_none listed

theorem witness_FrameDataIsWritten :
    (Reaches (.writeFrameData 0 0 [1]) live ∧ live.frame 0 = none) ∧
    (Reaches (.writeFrameData 0 0 [1]) (withFrame 0 openFrame live) ∧ openFrame.origin = .host ∧ openFrame.state = .open ∧
      openFrame.fillMark = some 0 ∧ (0 : Word32).toNat + ([1] : List Byte).length ≤ openFrame.byteLength) ∧
    openFrame.fillMark ≠ some (1 : Word32).toNat ∧ readyFrame.state ≠ .open ∧
    openFrame.byteLength < (0 : Word32).toNat + (List.replicate 17 (0 : Byte)).length ∧
    ((onPort (.hostWrite 0 [1]) (withFrame 0 openFrame live)).store.port.busy = some (.hostWrite 0 [1]) ∧
      (onPort (.hostWrite 0 [1]) (withFrame 0 openFrame live)).frame 0 = some openFrame ∧ openFrame.retiring = false) := by
  repeat' apply And.intro
  all_goals decide +kernel

theorem witness_FrameBytesAreReadBack :
    ([5, 4] : List Page).Nodup ∧ 65535 + ([1, 2] : List Byte).length ≤ 65536 * ([5, 4] : List Page).length := by decide +kernel

theorem witness_FramesAreSealed :
    (Reaches (.sealFrame 0) live ∧ live.frame 0 = none) ∧
    (Reaches (.sealFrame 0) (withFrame 0 openFrame live) ∧ openFrame.fill < openFrame.byteLength) ∧
    (fullFrame.origin = .host ∧ fullFrame.state = .open ∧ fullFrame.byteLength ≤ fullFrame.fill ∧ fullFrame.heldBytes = []) ∧
    ({ fullFrame with byteLength := 12, fillMark := some 12, heldBytes := [1, 2, 3, 4] } : Frame).heldBytes ≠ [] ∧
    ((onPort (.hostSeal 0) (withFrame 0 fullFrame live)).store.port.busy = some (.hostSeal 0) ∧
      (onPort (.hostSeal 0) (withFrame 0 fullFrame live)).frame 0 = some fullFrame) := by
  repeat' apply And.intro
  all_goals decide +kernel

theorem witness_FrameDataIsRead :
    (Reaches (.readFrameData 0 0 16) live ∧ live.frame 0 = none) ∧ openFrame.state ≠ .ready ∧
    (Reaches (.readFrameData 0 0 16) (withFrame 0 readyFrame live) ∧ readyFrame.state = .ready ∧ 1 ≤ (16 : Word16).toNat ∧
      (16 : Word16).toNat ≤ 512 ∧ (0 : Word32).toNat + (16 : Word16).toNat ≤ readyFrame.byteLength) ∧
    ((0 : Word16).toNat = 0 ∧ 512 < (513 : Word16).toNat ∧ readyFrame.byteLength < (0 : Word32).toNat + (17 : Word16).toNat) ∧
    ((onPort (.hostRead 0 0 16) (withFrame 0 readyFrame live)).store.port.busy = some (.hostRead 0 0 16) ∧
      (onPort (.hostRead 0 0 16) (withFrame 0 readyFrame live)).frame 0 = some readyFrame ∧ readyFrame.retiring = false) ∧
    (0 < (ReadErrors.mk 0 1).uncorrectable ∧ 65535 / 65536 < (65535 + 2 - 1) / 65536) := by
  repeat' apply And.intro
  all_goals decide +kernel

/-- The last access of this scrub step is in progress. -/
def scrubbing (st : ScrubStep) (p : PatrolState) (stop : Nat) : State :=
  let s := onPort (.scrub 5) framed
  { s with params := { s.params with stopOnUncorrectable := stop }, store := { s.store with scrubStep := some st, patrol := p } }

theorem witness_ScrubStepsBeginAndCountErrors :
    (Reaches (.scrubPage 4096) live ∧ 4095 < (4096 : Word16).toNat) ∧
    (Reaches (.scrubPage 5) live ∧ live.scrubbable 5 = false) ∧
    (Reaches (.scrubPage 5) framed ∧ framed.scrubbable 5 = true ∧ framed.store.scrubStep = none) ∧
    ({ framed with store := { framed.store with scrubStep := some ⟨5, 0, 0, 0, false, false, false⟩ } } : State).store.scrubStep ≠ none ∧
    (Reaches .resumeScrub live ∧ live.store.patrol ≠ .stopped) ∧
    (onStore { live.store with patrol := .stopped }).store.patrol = .stopped ∧
    (patrolling.part = ⟨false, true, true⟩ ∧ patrolling.store.scrubTimer ≠ none ∧ patrolling.store.patrol = .running ∧
      patrolling.store.scrubStep = none ∧ patrolling.nextScrub = some 5) ∧
    (onPort (.scrub 5) framed).store.port.busy = some (.scrub 5) ∧
    (framed.owner 5 = some 0 ∧ framed.frame 0 = some readyFrame ∧ readyFrame.state ≠ .damaged ∧ readyFrame.retiring = false ∧
      framed.scrubbable 5 = true ∧ (⟨5, 14, 0, 0, false, false, false⟩ : ScrubStep).portions < 15) ∧
    (∀ st ∈ [(⟨5, 15, 0, 0, false, false, false⟩ : ScrubStep), ⟨5, 15, 3, 1, true, false, false⟩, ⟨5, 2, 3, 1, true, true, true⟩],
      ∀ p ∈ [PatrolState.running, .stopped], ∀ b ∈ [0, 1],
      let s := scrubbing st p b
      s.store.port.busy = some (.scrub 5) ∧ s.store.scrubStep = some st ∧ st.page = 5 ∧ (15 ≤ st.portions ∨ st.left = true) ∧
        s.store.scrubWaiting = none ∧ s.store.searchDue = false) ∧
    (onPort (.scrub 6) framed).scrubbable 6 = false ∧
    (let f : Frame := { readyFrame with state := .damaged, pins := 1 }
     let s := onPort (.scrub 5) (withFrame 0 f live)
     s.store.port.busy = some (.scrub 5) ∧ s.owner 5 = some 0 ∧ s.frame 0 = some f ∧ 0 < f.pins ∧ f.retiring = false ∧
       s.scrubbable 5 = true ∧ (⟨5, 0, 0, 0, true, false, false⟩ : ScrubStep).left = false) := by
  repeat' apply And.intro
  all_goals decide +kernel

theorem witness_NothingToScrub :
    (onStore { live.store with scrubTimer := some 1, patrol := .running }).nextScrub = none := by decide +kernel

theorem witness_MigrationBurstCompleteCopiesTheBurst :
    (migrating 14).store.port.busy = some (.migration 5 6 (14 * 4096)) ∧ (migrating 14).store.migration = some ⟨5, 6, 0, 14⟩ ∧
    (migrating 15).store.port.busy = some (.migration 5 6 (15 * 4096)) ∧ (migrating 15).store.migration = some ⟨5, 6, 0, 15⟩ ∧
    (migrating 15).frame 0 = some readyFrame ∧ ((migrating 15).attr 5).readers = 0 ∧ 0 < (ReadErrors.mk 0 1).uncorrectable ∧
    ((ReadErrors.mk 512 0).uncorrectable = 0 ∧ (ReadErrors.mk 512 0).correctable ≠ 0 ∧ ReadErrors.none.correctable = 0) ∧
    0 < (({ migrating 15 with store := { (migrating 15).store with attrs := [(5, ⟨0, false, 1⟩)] } } : State).attr 5).readers := by
  decide +kernel

theorem witness_FrameDamageNoticeStopsTheLines :
    TablesSound (onStore { live.store with notices := [1023] }) ∧
    (live.part.inReset = false ∧ live.part.started = true ∧ (onStore { live.store with notices := [1023] }).store.notices = [1023]) :=
  ⟨⟨List.Pairwise.nil, List.Pairwise.nil, List.Pairwise.nil⟩, by decide +kernel⟩

/-! ### Card slots and import -/

theorem witness_CardsAreDetectedAndRemoved :
    ((live.slot 0).detect = false ∧ (live.slot 0).state = .empty) ∧
    ((settlingSlot.slot 0).detect = true ∧ (settlingSlot.slot 0).state = .settling ∧ (settlingSlot.slot 0).debounce ≠ none) ∧
    (Reaches (.resetSlot 8) live ∧ 7 < (8 : Byte).toNat) ∧ (Reaches (.resetSlot 0) live ∧ (live.slot 0).state ≠ .faulted) ∧
    (Reaches (.resetSlot 0) faultedSlot ∧ (faultedSlot.slot 0).state = .faulted) ∧
    ((queued.slot 0).detect = true ∧ (queued.slot 0).state = .ready ∧ 0 ∈ (queued.slot 0).importQueue ∧
      queued.frame 0 = some cardFrame ∧ cardFrame.origin = .card 0 1 0 ∧ cardFrame.state ≠ .damaged) := by
  repeat' apply And.intro
  all_goals decide +kernel

theorem witness_ImportsAreQueuedAndCancelled :
    (Reaches (.importFrame 8 1 0 512) live ∧ 7 < (8 : Byte).toNat) ∧ (Reaches (.importFrame 0 1 0 0) live ∧ (0 : Word32).toNat = 0) ∧
    16777216 < (16777217 : Word32).toNat ∧ (live.slot 0).state ≠ .ready ∧
    (Reaches (.importFrame 0 1 99 512) carded ∧ (carded.slot 0).state = .ready ∧ (1 : Byte) = (carded.slot 0).session ∧
      (carded.slot 0).capacity = some 100 ∧ (99 : Word32).toNat + ((512 : Word32).toNat + 511) / 512 ≤ (100 : Word32).toNat ∧
      (carded.slot 0).importQueue.length < 16 ∧ carded.frame 0 = none ∧ carded.store.freePool.length < (512 + 65535) / 65536) ∧
    ((2 : Byte) ≠ (carded.slot 0).session ∧ (100 : Word32).toNat < (99 : Word32).toNat + ((513 : Word32).toNat + 511) / 512) ∧
    16 ≤ ((withSlot { readySlot with importQueue := List.range 16 } live).slot 0).importQueue.length ∧
    (Reaches (.cancelImport 0) live ∧ live.frame 0 = none) ∧ (Reaches (.cancelImport 0) framed ∧ readyFrame.origin = .host) ∧
    (Reaches (.cancelImport 0) queued ∧ queued.frame 0 = some cardFrame ∧ cardFrame.state = .queued) ∧
    (Reaches (.cancelImport 0) (filling progress .free) ∧ ((filling progress .free).slot 0).progress = some progress ∧
      progress.cancel = false ∧ progress.phase = .running) ∧
    ({ progress with cancel := true } : Progress).cancel = true := by
  repeat' apply And.intro
  all_goals decide +kernel

theorem witness_NoBlocksRun : ∀ odd left, ((filling progress .free).cardLink (linkOf 0)).work ≠ .blocks odd left :=
  fun _ _ h => nomatch h

theorem witness_CardLinkIdentifiesTheCard :
    ((identifying .free).cardLink 0).work = .free ∧ (identifying .free).grantPosition 0 = some false ∧
    ((identifying .free).slot (slotOf 0 false)).state = .identifying ∧
    (((identifying (.wake false 0)).cardLink 0).responseWait ≠ none ∧ opens okToWake = true ∧
      judgeToken (CardCommand.kindByte false .wake) false okToWake = .succeeds 0 []) ∧
    (((identifying (.identify false 0)).cardLink 0).work = .identify false 0 ∧ opens okToIdentify = true ∧
      judgeToken (CardCommand.kindByte false .identify) true okToIdentify = .succeeds 1 (List.replicate 16 0)) ∧
    ((identifying (.wake false 0)).slot 0).failedIdentifies < 2 ∧
    2 ≤ ((withSlot { Slot.reset with state := .identifying, failedIdentifies := 2 } live).slot 0).failedIdentifies := by
  decide +kernel

theorem witness_CardBlocksReachTheFrame :
    ((filling progress (.blocks false 2)).slot (slotOf 0 false)).importQueue = [0] ∧
    ((filling progress (.blocks false 2)).slot (slotOf 0 false)).progress = some progress ∧
    (filling progress (.blocks false 2)).frame 0 = some { cardFrame with state := .filling } ∧
    ((filling progress (.blocks false 2)).cardLink 0).work = .blocks false 2 ∧
    ((filling progress (.blocks false 2)).cardLink 0).blockWait ≠ none ∧ (List.replicate 512 (0 : Byte)).length = 512 ∧
    (onPort (.block 0 0 0 [1] false) (filling progress .free)).store.port.busy = some (.block 0 0 0 [1] false) ∧
    progress.blocks ≤ progress.written + 1 ∧ ({ progress with blocks := 2 } : Progress).written + 1 < 2 := by decide +kernel

/-! ### The order book -/

theorem witness_OpenOrderCreatesAnEmptyOrder :
    (Reaches (.openOrder 4 0) live ∧ 3 < (4 : Byte).toNat) ∧ (Reaches (.openOrder 3 2) live ∧ 1 < (2 : Byte).toNat) ∧
    (Reaches (.openOrder 3 1) live ∧ (1 : Byte).toNat ≤ 1 ∧ live.order 0 = none) ∧
    (Reaches (.openOrder 0 0) booked ∧ ∀ n, n < 64 → booked.order n ≠ none) ∧
    (Reaches (.openOrder 0 0) lastFree ∧ lastFree.order 63 = none ∧ ∀ j, j < 63 → lastFree.order j ≠ none) := by
  repeat' apply And.intro
  all_goals decide +kernel

theorem witness_AddLineCitesTheFrame :
    (Reaches (.addLine 64 0 0 1 0) live ∧ 63 < (64 : Byte).toNat) ∧ (Reaches (.addLine 63 0 0 1 0) live ∧ live.order 63 = none) ∧
    (Reaches (.addLine 0 0 0 99 2) selling ∧ selling.order 0 = some anOrder ∧ anOrder.state = .open ∧ (99 : Byte).toNat ≤ 99 ∧
      toFit 2 = some .border ∧ anOrder.nextLine = some 2 ∧ anOrder.lines.length < 32 ∧ selling.frame 0 = some readyFrame ∧
      readyFrame.state = .ready ∧ readyFrame.releasePending = false ∧ selling.book.prices[0].enabled = true ∧
      anOrder.valueDue + (99 : Byte).toNat * selling.book.prices[0].price ≤ 999999) ∧
    (99 < (100 : Byte).toNat ∧ 15 < (16 : Byte).toNat ∧ 1023 < (1024 : Word16).toNat ∧ 2 < (3 : Byte).toNat) ∧
    (({ anOrder with state := .locked } : Order).state ≠ .open ∧ ({ anOrder with nextLine := none } : Order).nextLine = none) ∧
    openFrame.state ≠ .ready ∧ live.book.prices[0].enabled = false ∧
    999999 < ({ anOrder with valueDue := 999998 } : Order).valueDue + (1 : Byte).toNat * selling.book.prices[0].price := by
  repeat' apply And.intro
  all_goals decide +kernel

theorem witness_ChangeAndRemoveLineEditAnOpenOrder :
    (Reaches (.changeLine 0 1 0 0 99 2) selling ∧ selling.order 0 = some anOrder ∧ anOrder.line 1 = some aLine ∧
      (0 : Word16).toNat = aLine.frame ∧ (0 : Byte).toNat = aLine.product.val ∧
      linesDue (anOrder.setLine { aLine with quantity := 99, fit := .border }).lines ≤ 999999) ∧
    999999 < linesDue (({ anOrder with lines := [{ aLine with unitPrice := 65535 }] } : Order).setLine
      { aLine with unitPrice := 65535, quantity := 99, fit := .border }).lines ∧
    ((0 : Byte) = 0 ∧ ({ anOrder with state := .locked } : Order).state ≠ .open) ∧
    (Reaches (.removeLine 0 1) live ∧ live.order 0 = none) ∧
    (Reaches (.removeLine 0 1) selling ∧ selling.frame aLine.frame = some readyFrame) ∧ anOrder.line 2 = none := by
  repeat' apply And.intro
  all_goals decide +kernel

theorem witness_LockOrderCreatesTheSale :
    (Reaches (.lockOrder 0) selling ∧ selling.order 0 = some anOrder ∧ anOrder.state = .open ∧ anOrder.lines ≠ [] ∧
      (∀ l ∈ anOrder.lines, selling.citable l.frame = true) ∧
      (∀ l ∈ anOrder.lines, selling.book.prices[l.product].enabled = true) ∧ (selling.line 0).state = .up ∧ 0 < anOrder.valueDue ∧
      selling.tender 0 = none ∧ selling.tenders.inService[(0 : Fin 4)] = false) ∧
    (({ anOrder with lines := [] } : Order).lines = [] ∧ live.citable 0 = false ∧ live.book.prices[aLine.product].enabled = false ∧
      (live.line 0).state ≠ .up) ∧
    (∀ k, k < 32 → tendered.tender k ≠ none) ∧
    (serving.tenders.inService[(0 : Fin 4)] = true ∧ serving.exchanging 0 = none ∧ serving.exchangeQueue 0 = [] ∧
      (serving.line 0).txQueue.length < 2) ∧
    (({ anOrder with valueDue := 0 } : Order).valueDue = 0 ∧ (∀ e, (selling.engine e).link ≠ .online) ∧
      (∃ l ∈ anOrder.lines, 0 < l.waiting) ∧ selling.book.admission ≠ 4294967295) := by
  repeat' apply And.intro
  all_goals decide +kernel

theorem witness_CancelOrderEndsByState :
    (Reaches (.cancelOrder 0) selling ∧ selling.order 0 = some anOrder ∧ anOrder.state = .open) ∧
    (Reaches (.cancelOrder 0) (paying { anOrder with state := .locked } aTender) ∧ aTender.money = .requested) ∧
    ({ anOrder with state := .locked, cancelRequested := true } : Order).cancelRequested = true ∧
    ({ aTender with money := .approved } : Tender).money ≠ .requested ∧
    (aTender.purpose = .sale ∧ ({ aTender with exchange := .waitingLine } : Tender).exchange = .waitingLine ∧ aTender.order = 0 ∧
      selling.tenders.inService[aTender.line] = false) ∧
    (Reaches (.cancelOrder 0) (withOrder 0 printing live) ∧ printing.state = .printing) ∧
    ({ anOrder with state := .settling } : Order).state = .settling := by
  repeat' apply And.intro
  all_goals decide +kernel

theorem witness_PriorityRetirementExpiryAndPrices :
    (Reaches (.setPriority 0 2) selling ∧ 1 < (2 : Byte).toNat) ∧
    (Reaches (.setPriority 0 1) selling ∧ toPriority 1 = some .express ∧ anOrder.state = .open) ∧
    (Reaches (.retireOrder 0) selling ∧ selling.order 0 = some anOrder) ∧
    ({ anOrder with state := .closed } : Order).state = .closed ∧ anOrder.idleDeadline ≠ none ∧
    (Reaches (.setPrice 16 0 1 0) live ∧ 15 < (16 : Byte).toNat ∧ 7 < (8 : Byte).toNat) ∧
    (Reaches (.setPrice 15 1 7 65535) live ∧ (7 : Byte).toNat ≤ 7) := by
  repeat' apply And.intro
  all_goals decide +kernel


/-! ### Payment lines -/

/-- Line 0 UP in the exchange of a sale, with this on TXD. -/
def talking (c : TxChar) : State := sending { upLine with txQueue := [sale], txChar := c }

theorem witness_SetLineAndReadLine :
    (0 : Byte).toNat = (0 : Fin 4).val ∧ (3 : Byte).toNat = (3 : Fin 4).val ∧
    (Reaches (.setLine 3 9601 8 0 1 1) live ∧ toLineMode 9601 8 0 1 = none) ∧ (Reaches (.setLine 3 9600 8 0 1 2) live ∧ 1 < (2 : Byte).toNat) ∧
    (Reaches (.setLine 0 9600 8 0 1 1) selling ∧ toLineMode 9600 8 0 1 = some ⟨9600, 8, .none, 1⟩ ∧ toFlag 1 = some true ∧
      (selling.line 0).mode = some ⟨9600, 8, .none, 1⟩ ∧ (selling.line 0).enable = true) ∧
    (Reaches (.setLine 3 115200 7 2 2 0) live ∧ toLineMode 115200 7 2 2 = some ⟨115200, 7, .odd, 2⟩ ∧ toFlag 0 = some false ∧
      (live.line 3).mode ≠ some ⟨115200, 7, .odd, 2⟩) ∧
    (Reaches (.setLine 0 19200 7 1 2 1) (talking .own) ∧ ((talking .own).line 0).state = .up ∧ ((talking .own).line 0).txChar ≠ .idle ∧
      toLineMode 19200 7 1 2 = some ⟨19200, 7, .even, 2⟩ ∧ ((talking .own).line 0).mode ≠ some ⟨19200, 7, .even, 2⟩) ∧
    (Reaches (.readLine 0 2) live ∧ 1 < (2 : Byte).toNat) ∧ Reaches (.readLine 0 0) live ∧ Reaches (.readLine 0 1) live := by
  repeat' apply And.intro
  all_goals decide +kernel

theorem witness_DsrAndBreaksMoveTheLine :
    (selling.part.inReset = false ∧ (selling.line 0).dsrInput ≠ false ∧ (selling.line 0).mode ≠ none) ∧
    ((withLine { upLine with dsrInput := false, dsrFilter := some 1 } live).line 0).dsrFilter ≠ none ∧
    (let s := withLine { upLine with dsrInput := false, dsrFilter := some 1, txQueue := [sale], txChar := .own } selling
     (s.line 0).dsrFilter ≠ none ∧ (s.line 0).dsrInput = false ∧ (s.line 0).state = .up) ∧
    ((selling.line 0).enable = true ∧ (selling.line 0).state = .up) ∧
    ((withLine { upLine with state := .down } live).line 0).state = .down ∧
    (((withLine { upLine with state := .broken } live).line 0).state = .broken ∧
      ((withLine { upLine with state := .broken } live).line 0).dsr = true) := by decide +kernel

theorem witness_ReceivedCharactersBecomeMessages :
    ((withLine { upLine with state := .down } live).line 0).mode = some ⟨9600, 8, .none, 1⟩ ∧
    (selling.line 0).rxFifo.length < 16 ∧
    16 ≤ ((withLine { upLine with rxFifo := List.replicate 16 (0, false) } live).line 0).rxFifo.length ∧
    ((withLine { upLine with rxFifo := [(0x02, false)] } live).line 0).rxFifo = (0x02, false) :: [] ∧
    (upLine.state = .up ∧ upLine.handOff = none ∧ upLine.overrunMark = false ∧ upLine.assembly = .hunting) ∧
    ({ upLine with assembly := .body [] false } : PayLine).assembly = .body [] false ∧ (0x30 : Byte) ≠ 0x02 ∧ (0x30 : Byte) ≠ 0x03 ∧
    (List.replicate 17 (0x30 : Byte)).length < 18 ∧ 18 ≤ (List.replicate 18 (0x30 : Byte)).length ∧
    ({ upLine with assembly := .check [0x43, 0x30, 0x30] false } : PayLine).assembly = .check [0x43, 0x30, 0x30] false ∧
    judgeMessage [0x4F, 0x30, 0x30] 0x4C (false || false) = some (0, .voided) ∧
    judgeMessage [0x4F, 0x30, 0x30] 0x4C (false || true) = none := by decide +kernel

theorem witness_CharactersAreSentUnderCts :
    ((selling.line 0).cts ≠ true ∧ (selling.line 0).txChar = .idle) ∧
    (∀ parity ∈ [Parity.none, .even, .odd],
      let s := sending { upLine with mode := some ⟨9600, 7, parity, 2⟩, txQueue := [sale], txChar := .own }
      (s.line 0).txChar = .own ∧ (s.line 0).mode = some ⟨9600, 7, parity, 2⟩ ∧ (s.line 0).txQueue = sale :: [] ∧
        sale.bytes[(s.line 0).txSent]? = some 1) ∧
    ((talking (.orphan [false, true])).line 0).txChar = .orphan [false, true] ∧
    (((sending { upLine with txQueue := [sale], txChar := .own }).line 0).txChar = .own ∧
      ((sending { upLine with txQueue := [sale], txChar := .own }).line 0).txQueue = sale :: [] ∧
      ((sending { upLine with txQueue := [sale], txChar := .own }).line 0).txSent + 1 < sale.bytes.length) ∧
    (sale.bytes.length ≤ ({ upLine with txSent := 1 } : PayLine).txSent + 1 ∧ sale.current = true ∧
      (sending { upLine with txQueue := [sale], txChar := .own, txSent := 1 }).tender sale.tender = some { aTender with
        phase := some .sending, saleSent := false, messageBegun := false, replyDeadline := none } ∧
      aTender.exchange = .inExchange ∧ aTender.line = 0) ∧
    (((sending { upLine with txQueue := [sale], ctsWait := some 1 }).line 0).ctsWait ≠ none ∧
      ((sending { upLine with txQueue := [sale], ctsWait := some 1 }).line 0).txQueue = [sale] ∧ sale.kind = .sale ∧
      aTender.purpose = .sale) := by decide +kernel

/-! ### Tenders -/

theorem witness_RepliesDecideTheTender :
    ((paying lockedOrder aTender).order aTender.order = some { lockedOrder with tender := some 0 } ∧ aTender.purpose = .sale ∧
      lockedOrder.state = .locked ∧ lockedOrder.cancelRequested = false) ∧
    Hears 0 0 (.declined 99) aTender (paying lockedOrder aTender) ∧ Hears 0 0 .cancelled aTender (paying lockedOrder aTender) ∧
    Hears 0 0 .withdrawn (exchanged .withdraw none) (exchanging { lockedOrder with cancelRequested := true } .withdraw none) ∧
    Hears 0 0 .busy aTender (paying lockedOrder aTender) ∧
    Hears 0 0 .busy { aTender with busyCount := 4 } (paying lockedOrder { aTender with busyCount := 4 }) ∧
    (aTender.busyCount < 4 ∧ (paying lockedOrder aTender).tenders.inService[(0 : Fin 4)] = true ∧
      ((paying lockedOrder aTender).line 0).state = .up ∧ ((paying lockedOrder aTender).line 0).txQueue = []) ∧
    (Hears 0 0 (.captured 2) (exchanged .capture none) (exchanging settlingOrder .capture none) ∧
      (exchanged .capture none).amountToCapture = some 2 ∧ settlingOrder.state = .settling) ∧
    (Hears 0 0 .voided (exchanged .void none) (exchanging settlingOrder .void none) ∧ (exchanged .void none).shortApproval = false) ∧
    ((paying lockedOrder aTender).hears 0 31 .voided = true ∧ (paying lockedOrder aTender).tender 31 = none) := by
  repeat' first | apply And.intro | apply Hears.mk
  all_goals decide +kernel

/-- The one tender of that state is the only one in exchange on its line. -/
theorem witness_OnlyTenderInExchange :
    Ascending (paying lockedOrder aTender).tenders.tenders ∧
    ∀ k q, (paying lockedOrder aTender).tender k = some q → q.line = 0 → q.exchange = .inExchange → k = 0 := by
  refine ⟨List.pairwise_singleton .., fun k q h _ _ => ?_⟩
  have held : find k [(0, aTender)] = some q := h
  unfold find at held
  split at held
  · next zero => exact zero.symm
  · cases held

theorem witness_ApprovalsSendTheOrderToPrinting :
    let s := withFrame 0 readyFrame (exchanging lockedOrder .sale none)
    let t := withFrame 0 readyFrame (exchanging lockedOrder .enquire (some .sale))
    (s.order 0 = some { lockedOrder with tender := some 0 } ∧ lockedOrder.state = .locked ∧ lockedOrder.cancelRequested = false ∧
      aTender.withdrawRequested = false ∧ aTender.shortApproval = false ∧ aTender.amountRequested ≤ 2 ∧
      (∀ e, (s.engine e).link ≠ .online) ∧ (∃ l ∈ lockedOrder.lines, 0 < l.waiting ∧ s.frameReady l.frame = true)) ∧
    Hears 0 0 (.approved 2 aReference) (exchanged .sale none) s ∧
    (Hears 0 0 (.stateApproved 2 aReference) (exchanged .enquire (some .sale)) t ∧ (exchanged .enquire (some .sale)).purpose = .enquire) := by
  intro s t
  repeat' first | apply And.intro | apply Hears.mk
  all_goals decide +kernel

theorem witness_EnquiryAnswersSettleTheTender :
    Hears 0 0 (.stateNone .voided) (exchanged .enquire (some .sale)) (exchanging lockedOrder .enquire (some .sale)) ∧
    (Hears 0 0 .statePending (exchanged .enquire (some .sale)) (exchanging lockedOrder .enquire (some .sale)) ∧
      (exchanged .enquire (some .sale)).pendingAnswers < 2) ∧
    (Hears 0 0 (.stateCaptured 2) (exchanged .enquire (some .capture)) (exchanging settlingOrder .enquire (some .capture)) ∧
      (exchanged .enquire (some .capture)).amountToCapture = some 2) ∧
    (Hears 0 0 (.stateCaptured 3) (exchanged .enquire (some .capture)) (exchanging settlingOrder .enquire (some .capture)) ∧
      (exchanged .enquire (some .capture)).amountToCapture ≠ some 3) := by
  repeat' first | apply And.intro | apply Hears.mk
  all_goals decide +kernel

theorem witness_OverdueUnresolvedAndWrittenOffTenders :
    ((paying lockedOrder aTender).tender 0 = some aTender ∧ (paying lockedOrder aTender).part.inReset = false ∧
      aTender.replyDeadline ≠ none ∧ aTender.exchange = .inExchange ∧ aTender.purpose = .sale) ∧
    (Reaches (.enquireTender 0) (paying lockedOrder aTender) ∧ aTender.unresolved = false) ∧
    (Reaches (.enquireTender 0) (paying lockedOrder stuckTender) ∧ (paying lockedOrder stuckTender).tender 0 = some stuckTender ∧
      stuckTender.unresolved = true ∧ stuckTender.exchange = .none) ∧
    (selling.tenders.inService[stuckTender.line] = false ∧ (paying lockedOrder aTender).exchanging 0 ≠ none) ∧
    (Reaches (.writeOffOrder 0) (paying lockedOrder aTender) ∧
      (paying lockedOrder stuckTender).order 0 = some { lockedOrder with tender := some 0 } ∧
      Reaches (.writeOffOrder 0) (paying settlingOrder stuckTender) ∧ settlingOrder.state = .settling) := by
  repeat' apply And.intro
  all_goals decide +kernel

/-! ### Engines, the sheet link and dispatch -/

theorem witness_PresenceMovesTheSheetLink :
    ((live.engine 0).presInput = false ∧ (live.engine 0).presInput ≠ true ∧ live.part.started = true ∧ starting.part.started = false ∧
      held.part.inReset = true) ∧
    (let s := withEngine { Engine.reset with presInput := true, presFilter := some 1 } live
     (s.engine 0).presFilter ≠ none ∧ (s.engine 0).presInput = true ∧ (s.engine 0).link = .absent ∧ (s.engine 0).control = []) ∧
    (let s := withEngine { huntingEngine with presInput := false, presFilter := some 1 } live
     (s.engine 0).presFilter ≠ none ∧ (s.engine 0).presInput = false ∧ (s.engine 0).link = .hunting) ∧
    ((withEngine { huntingEngine with presFilter := some 1 } live).engine 0).link ≠ .absent ∧
    (let s := flying { onlineEngine with presInput := false, presFilter := some 1 }
     (s.engine 0).presFilter ≠ none ∧ (s.engine 0).presInput = false ∧ (s.engine 0).link = .online) := by decide +kernel

theorem witness_TimersOfTheSheetLink :
    (((withEngine huntingEngine live).engine 0).helloTimer ≠ none ∧ ((withEngine huntingEngine live).engine 0).link = .hunting) ∧
    (((flying onlineEngine).engine 0).silenceTimer ≠ none ∧ ((flying onlineEngine).engine 0).link = .online) ∧
    ((lostTrack.engine 0).relinkTimer ≠ none ∧ (lostTrack.engine 0).link ≠ .online) := by decide +kernel

theorem witness_TransmitterChoosesTheNextFrame :
    ((withEngine huntingEngine live).engine 0).control = .hello :: [] ∧
    ((withEngine { onlineEngine with control := [.abort 7] } live).engine 0).control = .abort 7 :: [] ∧
    (let s := rastering .reading (some (.sheetStart 1 1 .fill 16))
     (s.engine 0).sheetPath = some (.sheetStart 1 1 .fill 16) ∧ 0 < (s.engine 0).credit ∧
       s.frameDamaged (s.engine 0).channel.frame = false ∧ (s.engine 0).control = []) ∧
    ({ onlineEngine with credit := 0 } : Engine).credit = 0 ∧ ((rastering .reading none).engine 0).sheetPath = none ∧
    ((rastering .reading (some (.sheetData 1 [0]))).engine 0).sheetPath = some (.sheetData 1 [0]) ∧
    (let r := { (rastering .finishing none).engine 0 with tx := .frame (.sheetEnd 1 5) }
     r.tx = .frame (.sheetEnd 1 5) ∧ r.channel.phase = .finishing ∧ r.channel.sheet = some 1 ∧ r.link = .online ∧ r.control = [] ∧
       r.sheetPath = none ∧ ∀ k, ((rastering .finishing none).engine k).enabled = false) := by decide +kernel

theorem witness_NoSheetEndOnTheWire : ∀ tag crc, ((withEngine huntingEngine live).engine 0).tx ≠ .frame (.sheetEnd tag crc) :=
  fun _ _ h => nomatch h

theorem witness_ReceiverTakesFramesAndFaults :
    ((0x11 : Byte) ≠ 0xA5 ∧ (List.replicate 1024 (0 : Byte)).length ≤ 1024 ∧ ((flying onlineEngine).engine 0).rxBuffer.length < 2) ∧
    (2 ≤ ([⟨1, []⟩, ⟨1, []⟩] : List RawFrame).length ∧ huntingEngine.link = .hunting) ∧
    (let s := flying { onlineEngine with rx := .marked }
     (s.engine 0).rx ≠ .hunt ∧ (s.engine 0).link = .online ∧ ∃ h ∈ (s.engine 0).sheets, h.state ≠ .unknown) ∧
    (∀ h ∈ (lostTrack.engine 0).sheets, h.state = .unknown) ∧
    ((⟨0x15, []⟩ : RawFrame).judge = none ∧ (⟨0x13, [0, 1]⟩ : RawFrame).judge = some (.done 1) ∧
      (⟨0x11, [7, 0, 0, 0, 0, 2]⟩ : RawFrame).judge = some (.ready ⟨7, 0, 0, 2, none⟩) ∧
      (⟨0x11, [7, 0, 0, 0, 0, 3]⟩ : RawFrame).judge = none) := by decide +kernel

theorem witness_ReadyAndStatusRecordTheFacts :
    ((7 : Byte).toNat ≤ 7 ∧ (2 : Byte).toNat ≤ 2 ∧ toHead 4 = some .fault ∧ toHead 5 = none) ∧
    (Offers 0 ⟨0x11, 7 :: (word2 65535 ++ word2 0 ++ [2])⟩ (withEngine huntingEngine live) ∧
      ((withEngine huntingEngine live).engine 0).link ≠ .absent ∧ ∀ k, (lostTrack.engine k).enabled = false) ∧
    (Offers 0 ⟨0x12, 7 :: (word2 65535 ++ word2 0 ++ [2, 4])⟩ (flying onlineEngine) ∧
      ((flying onlineEngine).engine 0).link = .online) := by
  repeat' apply And.intro
  all_goals decide +kernel

theorem witness_SheetOutcomesReachTheOrder :
    let l := { aLine with inFlight := 1 }
    InFlight 0 aSheet printing l (flying onlineEngine) ∧ InFlight 0 unknownSheet printing l lostTrack ∧
    (Offers 0 ⟨0x13, word2 1⟩ (flying onlineEngine) ∧ ((flying onlineEngine).engine 0).link = .online) ∧
    ((flying onlineEngine).engine 0).sheet 7 = none ∧
    ((rastering .reading none).engine 0).sheet 1 = some { aSheet with state := .streaming } ∧
    Offers 0 ⟨0x14, word2 1 ++ [7]⟩ (flying onlineEngine) ∧
    (l.reprintsUsed < printing.reprintAllowance ∧ l.stopped = false ∧ printing.cancelRequested = false ∧
      ({ printing with reprintAllowance := 0 } : Order).reprintAllowance ≤ l.reprintsUsed) ∧
    (inWindow 1 ((lostTrack.engine 0).nextTag) 1 = true ∧ inWindow 1 ((lostTrack.engine 0).nextTag) 0 = true ∧
      atOrBefore 1 1 = true ∧ atOrBefore 1 0 = false ∧ Offers 0 ⟨0x11, 7 :: (word2 0 ++ word2 0 ++ [2])⟩ lostTrack ∧
      (lostTrack.engine 0).link = .hunting ∧ unknownSheet.state = .unknown) ∧
    (Offers 0 ⟨0x12, 7 :: (word2 0 ++ word2 1 ++ [2, 3])⟩ (flying onlineEngine) ∧ toHead 3 ≠ none ∧ aSheet.state = .sent) ∧
    (lostTrack.engine 0).relinkTimer ≠ none := by
  intro l
  repeat' first | apply And.intro | apply InFlight.mk
  all_goals decide +kernel

theorem witness_EngineRequestsChangeTheRecord :
    (Reaches (.setEngine 3 0 0) live ∧ 2 < (3 : Byte).toNat ∧ 1 < (2 : Byte).toNat ∧ 15 < (16 : Byte).toNat) ∧
    (Reaches (.setEngine 2 1 15) live ∧ (2 : Byte).toNat = (2 : Fin 3).val) ∧ Reaches (.holdEngine 3) live ∧ Reaches (.holdEngine 2) live ∧
    Reaches (.releaseEngine 3) live ∧ Reaches (.releaseEngine 2) live ∧ Reaches (.readEngine 2 2) live ∧
    Reaches (.readEngine 2 0) live ∧ Reaches (.readEngine 2 1) live := by
  repeat' apply And.intro
  all_goals decide +kernel

theorem witness_ReleasedEngineTakesTheReadyCopy :
    Reaches (.releaseEngine 0) releasable ∧ (∀ k : Fin 3, k ≠ 0 → (releasable.engine k).enabled = false) ∧
    (releasable.engine 0).link = .online ∧ (releasable.engine 0).enabled = true ∧
    (releasable.engine 0).holds = ⟨true, false, false, false⟩ ∧ (releasable.engine 0).sheets = [] ∧
    (releasable.engine 0).channel = Channel.reset ∧ (releasable.engine 0).sheetPath = none ∧ releasable.ready = [(0, aLine.number)] ∧
    releasable.order 0 = some { printing with lines := [aLine] } ∧ printing.state = .printing ∧ 0 < aLine.waiting ∧
    releasable.frame aLine.frame = some readyFrame ∧ readyFrame.state = .ready ∧
    releasable.book.prices[aLine.product].media = (releasable.engine 0).media ∧
    (releasable.engine 0).stationMask.getLsbD printing.station = true := by
  repeat' apply And.intro
  all_goals decide +kernel

/-- A burst of 4096 bytes at this count of the sheet's bytes, of 70000, is in progress; the frame's pages are 5 and 6. -/
def bursting (buffers : List (List Byte)) (read length : Nat) : State :=
  let s := withFrame 0 { readyFrame with byteLength := 70000, extent := [5, 6] } (rastering .reading (some (.sheetData 1 [0])))
  let r := s.engine 0
  onPort (.raster 0 5 (read % 65536) 4096)
    (withEngine { r with channel := { r.channel with bytesRead := read, length := length, buffers := buffers } } s)

theorem witness_RasterBurstFillsABuffer :
    (let s := rastering .reading (some (.sheetStart 1 1 .fill 16))
     s.store.port.busy = some (.raster 0 5 0 4096) ∧ (s.engine 0).channel.phase = .reading ∧ (s.engine 0).channel.buffers = [] ∧
       (s.engine 0).channel.readingPage = some 5 ∧ (∀ a ∈ s.store.port.waiting, a.isRaster 0 = false) ∧
       ((s.engine 0).channel.bytesRead + 4096) % 65536 ≠ 0 ∧ (s.engine 0).channel.bytesRead + 4096 < (s.engine 0).channel.length ∧
       (s.engine 0).sheetPath ≠ none) ∧
    (let s := rastering .reading none
     (s.engine 0).sheetPath = none ∧ (s.engine 0).channel.sheet = some 1 ∧ (s.engine 0).channel.endDue = false ∧
       (s.engine 0).channel.bytesHanded + 1022 < (s.engine 0).channel.length ∧
       (s.engine 0).sheet 1 = some { aSheet with state := .streaming } ∧ (s.engine 0).channel.sheetWaits = false ∧
       (s.engine 0).link = .online ∧ (s.engine 0).control = [] ∧ ∀ k, (s.engine k).enabled = false) ∧
    (∀ buffers ∈ [[], [[0]]], ∀ n ∈ [(4096, 70000), (57344, 61440), (61440, 70000)],
      let s := bursting buffers n.1 n.2
      let c := (s.engine 0).channel
      s.store.port.busy = some (.raster 0 5 (n.1 % 65536) 4096) ∧ c.phase = .reading ∧ c.bytesRead + 4096 ≤ c.length ∧
        c.buffers = buffers ∧ c.buffers.length < 2 ∧ c.readingPage = some 5 ∧ (∀ a ∈ s.store.port.waiting, a.isRaster 0 = false) ∧
        (s.engine 0).sheetPath ≠ none ∧ (ReadErrors.mk 3 0).uncorrectable = 0 ∧ (ReadErrors.mk 3 0).correctable ≠ 0) ∧
    ((8192 % 65536 ≠ 0 ∧ 8192 < 70000) ∧ 57344 + 4096 = 61440 ∧ (61440 + 4096) % 65536 = 0 ∧ 61440 + 4096 < 70000) ∧
    ((bursting [] 61440 70000).frame 0 = some { readyFrame with byteLength := 70000, extent := [5, 6] } ∧ readyFrame.state ≠ .damaged ∧
      ({ readyFrame with extent := [5, 6] } : Frame).extent[0 + 1]? = some 6 ∧ ((bursting [] 61440 70000).engine 0).channel.pageIndex = 0) ∧
    ((rastering .stopping none).engine 0).channel.phase = .stopping := by decide +kernel

/-! ### The thermal watch and the management bus -/

theorem witness_PollsReadTheSensors :
    (let s := { polling false with bus := Bus.reset, thermal := { (polling false).thermal with pollTimer := some 1 } }
     s.part.inReset = false ∧ s.part.started = true ∧ s.thermal.pollTimer ≠ none ∧ s.thermal.state = .running ∧
       s.firstPresent s.thermal.cursor = some 0 ∧ s.bus.current = none ∧ s.bus.claims = []) ∧
    ((polling false).bus.current = some (.poll 0 false) ∧ (polling false).bus.claims = [] ∧ (polling false).thermal.state = .running) ∧
    (polling true).bus.current = some (.poll 0 true) ∧
    (max (-40) (min 125 (0x80 : Byte).toInt) = -40 ∧ max (-40) (min 125 (0x7F : Byte).toInt) = 125) ∧
    (((flying onlineEngine).engine 0).link = .online ∧ (∀ k, ((flying onlineEngine).engine k).enabled = false) ∧
      ((flying onlineEngine).engine 0).sheets = [aSheet] ∧ aSheet.state = .sent ∧ aSheet.abortSent = false ∧
      ((flying onlineEngine).engine 0).control = []) ∧
    (let s := { live with thermal := { live.thermal with sensors := live.thermal.sensors.set 3 ⟨some 20, some 5000, false⟩ } }
     s.present 3 = true ∧ s.stale 3 = false) := by decide +kernel

theorem witness_ManagementBusServesTheHost :
    (Reaches .clearBusError live ∧ live.thermal.state ≠ .stopped ∧ live.firstPresent live.thermal.cursor = some 0) ∧
    (Reaches .recoverBus live ∧ live.bus.current = none ∧ live.bus.claims = []) ∧ (claiming .recover).bus.current = some .recover ∧
    (Reaches (.settingsRead 512 1) live ∧ 0x1FF < (512 : Word16).toNat) ∧
    (Reaches (.settingsRead 256 256) live ∧ (256 : Word16).toNat ≤ 256 ∧ (256 : Word16).toNat + (256 : Word16).toNat ≤ 512) ∧
    (512 < (257 : Word16).toNat + (256 : Word16).toNat ∧ 256 < (257 : Word16).toNat) ∧
    (claiming (.settingsRead 0 1)).bus.current = some (.settingsRead 0 1) ∧
    (Reaches (.settingsWrite 0x1FF [0]) live ∧ (0x1FF : Word16).toNat % 16 + ([0] : List Byte).length ≤ 16) ∧
    (Reaches (.settingsWrite 0x1FF [0, 0]) live ∧ 16 < (0x1FF : Word16).toNat % 16 + ([0, 0] : List Byte).length) ∧
    (claiming (.settingsWrite 0 [0])).bus.current = some (.settingsWrite 0 [0]) := by
  repeat' apply And.intro
  all_goals decide +kernel

/-! ### Reading requests -/

theorem witness_ReadingRequestsAnswerTheRecords :
    (Reaches (.readFrame 0) live ∧ live.frame 0 = none ∧ Reaches (.readFrame 0) framed ∧ framed.frame 0 = some readyFrame) ∧
    Reaches .readStore live ∧ (Reaches (.readSlot 8) live ∧ Reaches (.readSlot 7) live ∧ (7 : Byte).toNat = (7 : Fin 8).val) ∧
    (Reaches (.readOrder 64) live ∧ Reaches (.readOrder 63) live ∧ live.order 63 = none ∧ Reaches (.readOrder 0) selling ∧
      selling.order 0 = some anOrder) ∧
    (Reaches (.findOrder 1000000) live ∧ Reaches (.findOrder 999999) selling ∧
      (∀ e ∈ selling.book.orders, e.2.receiptCode ≠ 999999) ∧ Reaches (.findOrder 100000) selling ∧
      (0, anOrder) ∈ selling.book.orders ∧ ∀ e ∈ selling.book.orders, e.2.receiptCode = 100000 → e = (0, anOrder)) ∧
    Reaches .readPrices live ∧
    (Reaches (.readTender 32) live ∧ Reaches (.readTender 31) live ∧ live.tender 31 = none ∧
      Reaches (.readTender 0) (paying lockedOrder aTender) ∧ (paying lockedOrder aTender).tender 0 = some aTender) ∧
    Reaches .readSensors live := by
  repeat' apply And.intro
  all_goals decide +kernel

/-! ### Well-formedness refuses each kind of ill-formed operand -/

theorem test_wellFormed_refuses :
    (Instr.requestFrame 0x46 1 [] 0).wellFormed = false ∧ (Instr.requestFrame 0x46 601 [0] 0).wellFormed = false ∧
    (Instr.overrunByte 0xFF).wellFormed = false ∧ (Instr.fillerByte 0x5D).wellFormed = false ∧
    (Instr.writeFrameData 0 0 []).wellFormed = false ∧ (Instr.writeFrameData 0 0 (List.replicate 513 0)).wellFormed = false ∧
    (Instr.settingsWrite 0 []).wellFormed = false ∧ (Instr.settingsWrite 0 (List.replicate 17 0)).wellFormed = false ∧
    (Instr.hostReadComplete ⟨66, 0⟩ .none).wellFormed = false ∧ (Instr.hostReadComplete .none ⟨0, 66⟩).wellFormed = false ∧
    (Instr.scrubPortionComplete ⟨513, 0⟩).wellFormed = false ∧ (Instr.migrationBurstComplete ⟨500, 13⟩).wellFormed = false ∧
    (Instr.rasterBurstComplete 0 ⟨0, 513⟩).wellFormed = false ∧ (Instr.responseToken 0 [0xFF]).wellFormed = false ∧
    (Instr.blockPacket 0 0xFF (List.replicate 512 0) 0).wellFormed = false ∧ (Instr.blockPacket 0 0xFE [] 0).wellFormed = false ∧
    (Instr.approved 0 0 1000000 aReference).wellFormed = false ∧ (Instr.approved 0 0 0 [0x41]).wellFormed = false ∧
    (Instr.stateApproved 0 0 0 (List.replicate 8 0x7F)).wellFormed = false ∧ (Instr.declined 0 0 100).wellFormed = false ∧
    (Instr.captured 0 0 1000000).wellFormed = false ∧ (Instr.stateCaptured 0 0 1000000).wellFormed = false ∧
    (Instr.rxFrameComplete 0 0xA5 []).wellFormed = false ∧ (Instr.rxFrameComplete 0 0x11 (List.replicate 1025 0)).wellFormed = false ∧
    (Instr.settingsReadEnd .done []).wellFormed = false ∧ (Instr.settingsReadEnd .stuck [0]).wellFormed = false ∧
    (Instr.imageReadEnd .done [0]).wellFormed = false ∧ (Instr.imageReadEnd .noAck [0]).wellFormed = false := by decide +kernel

theorem test_wellFormed_admits :
    (Instr.fillerByte 0xFF).wellFormed = true ∧ (Instr.writeFrameData 0 0 [0]).wellFormed = true ∧
    (Instr.approved 0 0 999999 aReference).wellFormed = true ∧ (Instr.imageReadEnd .done shortImage).wellFormed = true ∧
    (Instr.settingsReadEnd .stuck []).wellFormed = true := by decide +kernel

/-! ### Worked examples of the manual -/

/-- The state a command answers, or the state before where it answers none. -/
def after (i : Instr) (s : State) : State :=
  match exec i s with
  | .next t => t
  | _ => s

/-- Several commands one after another. -/
def afterAll (l : List Instr) (s : State) : State := l.foldl (fun t i => after i t) s

/-- Section 4.8: WITHDRAW for tender 7. -/
theorem test_withdraw_message : aTender.message 7 .withdraw = [0x02, 0x57, 0x30, 0x37, 0x03, 0x53] := by decide +kernel

/-- Section 4.8: APPROVED for tender 12, 1250 units, reference AB12CD34. -/
theorem test_approved_message :
    judgeMessage [0x41, 0x31, 0x32, 0x30, 0x30, 0x31, 0x32, 0x35, 0x30, 0x41, 0x42, 0x31, 0x32, 0x43, 0x44, 0x33, 0x34] 0x47 false =
      some (12, .approved 1250 aReference) := by decide +kernel

/-- Section 4.8: a SALE of 18 bytes stalls with 8 characters sent and is abandoned; its enquiry goes out when CTS returns. -/
theorem test_stalled_sale :
    let r := { aTender with phase := some .sending, saleSent := false, messageBegun := false, replyDeadline := none, receiptCode := 107919 }
    let q : OutMessage := ⟨.sale, 0, r.message 0 .sale, true⟩
    let s := withLine { upLine with txQueue := [q], txSent := 7, txChar := .own, cts := true } (paying lockedOrder r)
    let t := afterAll [.ctsChange 0 false, .txCharacterEnd 0] s
    let u := after (.ctsWaitExpiry 0) t
    q.bytes.length = 18 ∧ (t.line 0).txSent = 8 ∧ (t.line 0).ctsWait = some 2000 ∧
    ((u.line 0).txQueue.map (·.kind)) = [.enquire] ∧ (u.line 0).txSent = 0 ∧ (u.line 0).ctsWait = some 2000 ∧
    (u.tender 0).map (fun x => (x.purpose, x.pendingPurpose, x.saleSent)) = some (.enquire, some .sale, true) ∧
    ((after (.ctsChange 0 true) u).line 0).txChar = .own := by decide +kernel

/-- Section 5.11: a capture whose reply is lost is settled by an enquiry. -/
theorem test_lost_capture_reply :
    let s := exchanging settlingOrder .capture none
    let t := after (.replyDeadlineExpiry 0) s
    let good := after (.stateCaptured 0 0 2) t
    let bad := after (.stateCaptured 0 0 3) t
    (t.tender 0).map (fun r => (r.money, r.purpose, r.pendingPurpose, r.enquiryCount)) = some (.requested, .enquire, some .capture, 0) ∧
    (good.tender 0).map (fun r => (r.money, r.exchange, r.pendingPurpose)) = some (.captured, .none, none) ∧
    (good.order 0).map (fun o => (o.state, o.finish, o.valueCaptured)) = some (.closed, some .captured, 2) ∧
    (bad.tender 0).map (fun r => (r.unresolved, r.reportedAmount)) = some (true, some 3) ∧
    (bad.order 0).map (·.state) = some .settling ∧ bad.hasCondition .moneyMismatch = true := by decide +kernel

/-- Section 6.3: reconciliation across a tag wrap. The copies of lines 1 and 2 carry tags 65535 and 0, and the next tag is 1. -/
def wrapped : State :=
  withOrder 0 { printing with reprintAllowance := 0, lines := [{ aLine with inFlight := 1 }, { aLine with number := 2, inFlight := 1 },
      { aLine with number := 3 }] }
    (withEngine { huntingEngine with
      enabled := false
      sheets := [{ unknownSheet with tag := 65535 }, { unknownSheet with tag := 0, line := 2 }]
      nextTag := 1
      relinkTimer := some 5 } (flying huntingEngine))

/-- Copies delivered and failed of lines 1 and 2 and the protocol errors, after a READY with this last tag. -/
def reconciled (lastTag : Word16) : Option (List (Nat × Nat)) × Nat :=
  let t := after (.ready 0 1 10 lastTag 2) wrapped
  ((t.order 0).map (fun o => (o.lines.take 2).map fun l => (l.delivered, l.failed)), (t.engine 0).protocolErrors)

theorem test_reconciliation_across_a_wrap :
    (wrapped.engine 0).firstOpen = 65535 ∧ reconciled 0 = (some [(1, 0), (1, 0)], 0) ∧ reconciled 65535 = (some [(1, 0), (0, 1)], 0) ∧
    reconciled 65534 = (some [(0, 1), (0, 1)], 0) ∧ reconciled 300 = (some [(0, 1), (0, 1)], 1) := by decide +kernel

/-- Section 7.3: the express run limit. Orders 5 and 8 are EXPRESS at stations 1 and 2, order 3 is STANDARD at station 0. -/
def threePairs : State :=
  { withOrder 3 { printing with station := 0, lines := [{ aLine with quantity := 9 }] }
      (withOrder 5 { printing with station := 1, priority := .express, lines := [{ aLine with quantity := 9 }] }
        (withOrder 8 { printing with station := 2, priority := .express, lines := [{ aLine with number := 2, quantity := 9 }] }
          (withPrice ⟨true, 1, 2⟩ (withFrame 0 readyFrame (withEngine onlineEngine (allDisabled live)))))) with
    ready := [(5, 1), (8, 2), (3, 1)] }

/-- The order granted by one arbiter run, and the state in which the engine is eligible again. -/
def grantOnce (s : State) : State × Option Nat :=
  let t := s.runArbiter 4 0
  let n := ((t.engine 0).sheets.head?).map (·.order)
  ({ t with engines := t.engines.set 0 { t.engine 0 with sheets := [], sheetPath := none, channel := Channel.reset } }, n)

theorem test_express_run_limit :
    let a := grantOnce threePairs
    let b := grantOnce a.1
    let c := grantOnce b.1
    let d := grantOnce c.1
    let e := grantOnce d.1
    let f := grantOnce e.1
    [a.2, b.2, c.2, d.2, e.2, f.2] = [some 5, some 8, some 5, some 8, some 3, some 5] ∧
    (d.1.engine 0).expressRun = 4 ∧ (e.1.engine 0).expressRun = 0 ∧ (f.1.engine 0).expressRun = 1 ∧
    (f.1.engine 0).expressPointer = 1 ∧ (f.1.engine 0).standardPointer = 0 := by decide +kernel

/-- Section 8.4: a head that overheats and cools. -/
def readingOf (t : Int) (s : State) : State := s.takeReading 0 t

theorem test_head_overheats_and_cools :
    let s := { flying onlineEngine with
      thermal := { live.thermal with sensors := Vector.replicate 4 { Sensor.reset with reading := some 30, age := some 0 } } }
    let a := readingOf 68 s
    let b := readingOf 71 a
    let c := readingOf 86 b
    let d := readingOf 66 (readingOf 80 c)
    let e := readingOf 64 d
    ([a, b, c, d, e].map fun t => ((t.sensor 0).latch, (t.engine 0).holds.thermalHigh)) =
      [(false, false), (true, true), (true, true), (true, true), (false, false)] ∧
    (b.engine 0).control = [] ∧ (c.engine 0).control = [.abort 1] ∧ (c.engine 0).sheets.map (·.abortSent) = [true] := by
  decide +kernel

/-- Section 9.1: the frame of IDENTIFY PART, its CRC, and the response behind its mark. -/
theorem test_identify_part :
    let s := after (.requestFrame 0x01 0 [] 0xFBAC) (after .requestFrameStart selected)
    let t := after .identifyPart s
    orderLinkCrc [0x01, 0x00, 0x00] = 0xFBAC ∧ s.link.handed = some .identifyPart ∧
    (t.link.response.map fun r => r.bytes.take 5) = some [0xA6, 0x00, 0x00, 0x10, 0x48] ∧
    ((after (.fillerByte 0xFF) t).link.sdo) = 0xA6 ∧
    ((after (.requestFrame 0x01 0 [] 0xFBAD) (after .requestFrameStart selected)).link.response.map fun r => r.bytes.take 4) =
      some [0xA6, 0x02, 0x00, 0x00] := by decide +kernel

/-- Section 10.3: the short image with default parameters is loaded. -/
theorem test_short_image :
    let t := after (.imageReadEnd .done shortImage) reading
    t.loader = ⟨.done, none, some .loadedShort⟩ ∧ t.params = Params.reset ∧
    (∀ i, (t.line i).mode = some ⟨19200, 8, .none, 1⟩ ∧ (t.line i).enable = true) ∧
    (∀ e, (t.engine e).enabled = true ∧ (t.engine e).stationMask = 15) := by decide +kernel

/-! ### One step each of a few more commands -/

theorem test_power_on : after .powerOn live = { State.reset with link := live.link, pending := live.pending } := by decide +kernel

theorem test_scrub_cursor :
    (after .scrubTimerExpiry patrolling).store.scrubStep = some ⟨5, 0, 0, 0, false, false, false⟩ ∧
    (after .scrubTimerExpiry patrolling).store.port.busy = some (.scrub 5) := by decide +kernel

theorem test_identify_card :
    ((after (.responseToken 0 okToIdentify) (identifying (.identify false 0))).slot 0).state = .ready ∧
    ((after (.responseToken 0 okToIdentify) (identifying (.identify false 0))).slot 0).capacity = some 1 ∧
    ((after (.responseToken 0 [0xC0, 0x02, 0xC2]) (identifying (.identify false 0))).slot 0).lastError = some .refused := by
  decide +kernel

theorem test_card_block_crc : cardCrc [0x31, 0x32, 0x33, 0x34, 0x35, 0x36, 0x37, 0x38, 0x39] = 0x31C3 := by decide +kernel

theorem test_queue_is_first_in_first_out :
    step { live with pending := [.readStore, .readPrices] } = exec .readStore { live with pending := [.readPrices] } := rfl

theorem test_no_row_has_bits : decodeTableWord 8 0x5D = none ∧ State.reset.withFetchWord 8 0x5D = State.reset := by decide +kernel

/-! ### Further clauses of the statements: the Order Link, start-up and the store -/

theorem witness_PollingWindow :
    let s (n : Nat) : State := { live with bus := { Bus.reset with current := some (.settingsWrite 0 [0]), writeLeft := some n } }
    (s 1).pending = [] ∧ (s 1).part.inReset = false ∧ (s 1).bus.writeLeft = some 1 ∧ (s 2).bus.writeLeft = some 2 ∧
    live.bus.writeLeft = none := by decide +kernel

theorem witness_FramesMeetTheLink :
    (unselected.part.inReset = false ∧ unselected.link.selected = false ∧ unselected.link.state ≠ .working) ∧
    (starting.link.selected = true ∧ starting.part.started = false ∧ encodeRequest .identifyPart = some (0x01, []) ∧
      Instr.lengthSuits .identifyPart = true) ∧
    (receiving.link.overlong = false ∧ receiving.link.buffer = [] ∧ (onLink answered).link.state = .answered) ∧
    ((600 : Word16).toNat = (List.replicate 600 (0 : Byte)).length ∧ (List.replicate 600 (0 : Byte)).length ≤ 600) := by
  repeat' apply And.intro
  all_goals decide +kernel

theorem witness_BytesOfAFrame :
    (Spells .requestFrameStart 0x5D ∧ Spells (.fillerByte 0xFF) 0xFF ∧ Spells (.overrunByte 0x5C) 0x5C) ∧
    (frameLength ([0x46, 0x02] ++ [0x58]) = some 600 ∧ frameLength ([0x46, 0x02] ++ [0x59]) = some 601 ∧
      frameLength ([0x46] ++ [0x00]) = none) ∧
    (([0x01, 0, 0, 0xFB] ++ [0xAC] : List Byte).length = 0 + 5 ∧ ([0x01, 0, 0] ++ [0xFB] : List Byte).length ≠ 0 + 5) := by
  refine ⟨⟨?_, ?_, ?_⟩, by decide +kernel, by decide +kernel⟩
  · exact Or.inl ⟨rfl, rfl⟩
  · exact Or.inr (Or.inr rfl)
  · exact Or.inr (Or.inl rfl)

theorem witness_RestartWaits :
    let s (n : Nat) : State := onLink { answered with restartDue := true, shifted := n }
    (s 5).part.inReset = false ∧ (s 5).link.selected = true ∧ (s 5).link.response = some ⟨.ok, []⟩ ∧ (s 5).link.restartDue = true ∧
    (s 5).link.shifted < (⟨.ok, []⟩ : Response).bytes.length ∧ (⟨.ok, []⟩ : Response).bytes.length ≤ (s 6).link.shifted ∧
    (held.link.selected = true ∧ held.part.inReset = true) := by decide +kernel

/-- Store initialisation has completed, and the load is still under way. -/
def initialised (s : State) : State := { s with part := ⟨false, true, false⟩ }

theorem witness_TheLoadEndsLast :
    (initialised starting).part.started = false ∧ (initialised starting).part.initDone = true ∧
    (initialised starting).bus.current = some .loadOption ∧ (initialised starting).bus.claims = [] ∧
    (initialised reading).loader.option = some 0x01 ∧ (initialised reading).bus.current = some .loadImage ∧ reading.bus.claims = [] ∧
    (List.replicate 79 (0 : Byte)).length = (if (0x01 : Byte) = 0x02 then 143 else 79) := by decide +kernel

theorem witness_PinResetMeetsAnAccess :
    let write := onPort (.hostWrite 0 [1]) (withFrame 0 openFrame live)
    let sealing := onPort (.hostSeal 0) (withFrame 0 fullFrame live)
    let block := onPort (.block 0 0 0 [1] false) (filling progress .free)
    (write.store.port.busy = some (.hostWrite 0 [1]) ∧ write.frame 0 = some openFrame) ∧
    (sealing.store.port.busy = some (.hostSeal 0) ∧ sealing.frame 0 = some fullFrame) ∧
    (block.store.port.busy = some (.block 0 0 0 [1] false) ∧ block.frame 0 = some { cardFrame with state := .filling }) ∧
    (migrating 3).store.port.busy = some (.migration 5 6 (3 * 4096)) ∧ (onPort (.scrub 5) framed).store.port.busy = some (.scrub 5) ∧
    (onPort (.raster 0 5 0 16) framed).store.port.busy = some (.raster 0 5 0 16) ∧
    (onPort (.hostRead 0 0 16) framed).store.port.busy = some (.hostRead 0 0 16) ∧
    (framed.store.port.busy = none ∧ TablesSound framed ∧ framed.frame 0 = some readyFrame ∧ 0 ∉ framed.store.waitList ∧ readyFrame.state = .ready ∧
      readyFrame.releasePending = false ∧ readyFrame.retiring = false) := by
  intro write sealing block
  repeat' apply And.intro
  all_goals first | decide +kernel | exact List.Pairwise.nil | exact List.pairwise_singleton ..

theorem witness_BlocksAreDropped :
    blockWaits.frame 9 = none ∧ (filling progress .free).frame 0 = some { cardFrame with state := .filling } ∧
    (let s := { filling progress .free with store := { (filling progress .free).store with
        port := { (filling progress .free).store.port with waiting := [.block 0 0 0 [1] false] } } }
     Access.block 0 0 0 [1] true ∈ (s.damageFrame 0 .removed).store.port.waiting) ∧
    live.running = true ∧ held.running = false := by decide +kernel

/-- The part with no spare reserve to fill. -/
def roomy (s : State) : State := { s with params := { s.params with spareTarget := 0 } }

theorem witness_FramesOnTheirWayAreReleased :
    (Reaches (.releaseFrame 0) (roomy queued) ∧ (roomy queued).frame 0 = some cardFrame ∧ cardFrame.releasePending = false ∧
      cardFrame.state = .queued ∧ cardFrame.references = 0 ∧ cardFrame.pins = 0 ∧ (roomy queued).store.port.busy = none ∧
      (roomy queued).store.port.waiting = [] ∧ (roomy queued).store.migration = none ∧ (roomy queued).store.waitList = [] ∧
      (roomy queued).params.spareTarget ≤ (roomy queued).store.spares.length) ∧
    (let f := newFrame .host 16
     let s := onStore { live.store with waitList := [0], frames := [(0, f)] }
     Reaches (.releaseFrame 0) s ∧ s.frame 0 = some f ∧ f.state = .waitingSpace ∧ f.releasePending = false) ∧
    (∀ p ∈ [progress, { progress with phase := .halting }, { progress with cancel := true }, { progress with phase := .waitingLink },
        { progress with phase := .draining }],
      Reaches (.releaseFrame 0) (filling p .free) ∧ (filling p .free).frame 0 = some { cardFrame with state := .filling } ∧
        ((filling p .free).slot 0).progress = some p) := by
  repeat' apply And.intro
  all_goals first | decide +kernel | skip
  intro p hp
  simp only [List.mem_cons, List.not_mem_nil, or_false] at hp
  rcases hp with rfl | rfl | rfl | rfl | rfl <;> (repeat' apply And.intro) <;> decide +kernel

/-! ### Further clauses: the cards -/

/-- A card of slot 0 that the link works for, with another card at slot 1. -/
def shared (other : Slot) (w : LinkWork) : State :=
  let s := withCardLink { CardLink.reset with work := w, responseWait := some 5 } (withFrame 0 { cardFrame with origin := .card 1 1 0 } live)
  { s with cards := { s.cards with slots := (s.cards.slots.set 0 { readySlot with importQueue := [] }).set 1 other } }

theorem witness_RemovalServesTheOtherSlot :
    let s := shared { readySlot with importQueue := [0] } (.readRun false 0 1)
    let t := shared { Slot.reset with detect := true, power := true, state := .identifying } (.readRun false 0 1)
    let u := shared Slot.reset (.readRun false 0 1)
    ((s.slot 0).detect = true ∧ (s.slot 0).state = .ready ∧ (s.cardLink (linkOf 0)).work.position = some (isOdd 0) ∧ otherSlot 0 = 1 ∧
      (s.slot 1).state = .ready ∧ (s.slot 1).importQueue = [0] ∧ s.frame 0 = some { cardFrame with origin := .card 1 1 0 } ∧
      cardFrame.state = .queued) ∧
    (t.slot 1).state = .identifying ∧ ((u.slot 1).state ≠ .identifying ∧ (u.slot 1).importQueue = []) ∧
    (s.cardLink (linkOf 1)).work.position ≠ some (isOdd 1) := by
  intro s t u
  repeat' apply And.intro
  all_goals decide +kernel

theorem witness_CancelsInEveryPhase :
    ∀ p ∈ [progress, { progress with phase := .halting }, { progress with phase := .waitingLink }, { progress with phase := .draining },
        { progress with cancel := true }],
      Reaches (.cancelImport 0) (filling p .free) ∧ (filling p .free).frame 0 = some { cardFrame with state := .filling } ∧
        ((filling p .free).slot 0).progress = some p := by
  intro p hp
  simp only [List.mem_cons, List.not_mem_nil, or_false] at hp
  rcases hp with rfl | rfl | rfl | rfl | rfl <;> (repeat' apply And.intro) <;> decide +kernel

theorem witness_RunStandsForABuffer :
    ((filling progress (.blocks false 2)).cardLink (linkOf 0)).work = .blocks false 2 ∧
    ((withCardLink { CardLink.reset with work := .blocks false 2 } live).cardLink (linkOf 0)).blockWait = none ∧
    progress.phase = .running := by decide +kernel

/-- A response token that opens on a link awaiting one, judged so. -/
theorem responds {i : Instr} {s : State} {token : List Byte} {j : Judgement} (hi : i = .responseToken 0 token)
    (hw : (s.cardLink 0).responseWait ≠ none) (ho : opens token = true) (hj : s.judged 0 token = some j) : Responds 0 i j s :=
  ⟨hw, token, hi, ho, hj⟩

theorem witness_LinkIsGranted :
    ((filling progress (.blocks false 2)).cardLink 0).work ≠ .free ∧ live.grantPosition 0 = none ∧
    (let both := { queued with cards := { queued.cards with slots := queued.cards.slots.set 1 { Slot.reset with state := .identifying } } }
     both.slotHasWork (slotOf 0 false) = true ∧ both.slotHasWork (slotOf 0 true) = true ∧ (both.cardLink 0).gained = none) ∧
    ((queued.cardLink 0).work = .free ∧ queued.grantPosition 0 = some false ∧ (queued.slot (slotOf 0 false)).state = .ready ∧
      (queued.slot (slotOf 0 false)).importQueue = [0] ∧ queued.frame 0 = some cardFrame ∧
      cardFrame.origin = .card (slotOf 0 false) 1 0 ∧ cardFrame.state = .queued) ∧
    (let s := filling { progress with phase := .waitingLink } .free
     (s.cardLink 0).work = .free ∧ s.grantPosition 0 = some false ∧ (s.slot (slotOf 0 false)).importQueue = [0] ∧
       (s.slot (slotOf 0 false)).progress = some { progress with phase := .waitingLink }) := by
  repeat' apply And.intro
  all_goals decide +kernel

theorem witness_LinkIsAnswered :
    Responds 0 (.responseToken 0 okToWake) (.succeeds 0 []) (identifying (.wake false 0)) ∧
    Responds 0 (.responseToken 0 okToIdentify) (.succeeds 1 (List.replicate 16 0)) (identifying (.identify false 0)) ∧
    ExchangeFails 0 (.responseWaitExpiry 0) .responseTimeout (identifying (.identify false 0)) ∧
    ExchangeFails 0 (.responseToken 0 [0xC0, 0x01, 0xC1]) .refused (identifying (.wake false 0)) ∧
    ExchangeFails 0 (.responseToken 0 [0xB0, 0x02, 0xB2]) .busyLimit (identifying (.identify false 10)) ∧
    Responds 0 (.responseToken 0 ([0xA0, 0x02, 0, 0, 0, 0] ++ List.replicate 16 0 ++ [0xA2])) (.succeeds 0 (List.replicate 16 0))
      (identifying (.identify false 0)) ∧
    Responds 0 (.responseToken 0 [0xB0, 0x02, 0xB2]) .busy (identifying (.identify false 9)) := by
  refine ⟨responds rfl ?_ ?_ ?_, responds rfl ?_ ?_ ?_, Or.inl ?_, Or.inr (Or.inl (responds rfl ?_ ?_ ?_)),
    Or.inr (Or.inr ⟨responds rfl ?_ ?_ ?_, ?_, rfl⟩), responds rfl ?_ ?_ ?_, responds rfl ?_ ?_ ?_⟩ <;> decide +kernel

theorem witness_RunIsAnswered :
    let run (p : Progress) (w : LinkWork) : State := withCardLink { CardLink.reset with work := w, responseWait := some 5 } (filling p .free)
    Responds 0 (.responseToken 0 [0xA0, 0x03, 0xA3]) (.succeeds 0 []) (run progress (.readRun false 0 1)) ∧
    Responds 0 (.responseToken 0 [0xA0, 0x03, 0xA3]) (.succeeds 0 []) (run { progress with cancel := true } (.readRun false 0 1)) ∧
    ExchangeFails 0 (.responseToken 0 [0xA1, 0x03, 0xA2]) .tokenCheck (run progress (.readRun false 0 1)) ∧
    ExchangeFails 0 (.responseToken 0 [0xC0, 0x03, 0xC3]) .refused (run { progress with attempts := 2 } (.readRun false 0 1)) ∧
    Responds 0 (.responseToken 0 [0xA0, 0x04, 0xA4]) (.succeeds 0 []) (run { progress with cancel := true } (.halt false 0)) ∧
    ExchangeFails 0 (.responseWaitExpiry 0) .responseTimeout (run progress (.halt false 0)) := by
  intro run
  refine ⟨responds rfl ?_ ?_ ?_, responds rfl ?_ ?_ ?_, Or.inr (Or.inl (responds rfl ?_ ?_ ?_)),
    Or.inr (Or.inl (responds rfl ?_ ?_ ?_)), responds rfl ?_ ?_ ?_, Or.inl ?_⟩ <;> decide +kernel

/-! ### Further clauses: the order book and the tenders -/

theorem witness_LinesAreChanged :
    let other : OrderLine := { aLine with number := 2, frame := 1, product := 1 }
    let two : Order := { anOrder with lines := [aLine, other] }
    let s := withOrder 0 two (withFrame 1 { readyFrame with extent := [6], references := 1 } selling)
    let priced : State := { s with book := { s.book with prices := s.book.prices.set 1 ⟨true, 1, 5⟩ } }
    (Reaches (.changeLine 64 1 0 0 1 0) s ∧ 63 < (64 : Byte).toNat ∧ Reaches (.changeLine 9 1 0 0 1 0) s ∧ s.order 9 = none) ∧
    (s.order 0 = some two ∧ two.state = .open ∧ two.line 9 = none ∧ two.line 1 = some aLine) ∧
    (99 < (100 : Byte).toNat ∧ 15 < (16 : Byte).toNat ∧ 1023 < (1024 : Word16).toNat ∧ 2 < (3 : Byte).toNat ∧ toFit 1 ≠ none) ∧
    ((2 : Word16).toNat ≠ aLine.frame ∧ s.frame 2 = none ∧ (1 : Word16).toNat ≠ aLine.frame ∧
      s.frame 1 = some { readyFrame with extent := [6], references := 1 } ∧ readyFrame.releasePending = false ∧
      s.frame aLine.frame = some readyFrame) ∧
    ((1 : Fin 16) ≠ aLine.product ∧ s.book.prices[(1 : Fin 16)].enabled = false ∧ priced.book.prices[(1 : Fin 16)].enabled = true) ∧
    linesDue (two.setLine { aLine with product := 1, unitPrice := 5, quantity := 99 }).lines ≤ 999999 := by
  intro other two s priced
  repeat' apply And.intro
  all_goals decide +kernel

theorem witness_LockedOrdersAreCancelled :
    (lockedOrder.state = .locked ∧ lockedOrder.cancelRequested = false ∧
      Reaches (.cancelOrder 0) (paying lockedOrder { aTender with money := .approved })) ∧
    (let r : Tender := { aTender with exchange := .waitingLine, phase := none }
     let s := withTender 1 { aTender with order := 1 } (paying lockedOrder r)
     Reaches (.cancelOrder 0) s ∧ r.money = .requested ∧ r.purpose = .sale ∧ r.exchange = .waitingLine ∧ r.order = 0 ∧
       s.tender 1 = some { aTender with order := 1 } ∧ aTender.line = r.line ∧ aTender.exchange = .inExchange) ∧
    (let s := paying lockedOrder aTender
     Reaches (.cancelOrder 0) s ∧ s.tender 0 = some aTender ∧ aTender.purpose = .sale ∧ aTender.exchange = .inExchange ∧
       (s.line aTender.line).state = .up ∧ (s.line aTender.line).txQueue.length < 2) ∧
    (Reaches (.cancelOrder 0) (exchanging lockedOrder .enquire (some .sale)) ∧ (exchanged .enquire (some .sale)).purpose = .enquire ∧
      (exchanged .withdraw none).purpose = .withdraw) := by
  repeat' apply And.intro
  all_goals decide +kernel

theorem witness_RepliesToEveryPurpose :
    Hears 0 0 (.declined 5) (exchanged .withdraw none) (exchanging lockedOrder .withdraw none) ∧
    Hears 0 0 .cancelled (exchanged .withdraw none) (exchanging lockedOrder .withdraw none) ∧
    Hears 0 0 .busy (exchanged .withdraw none) (exchanging lockedOrder .withdraw none) ∧
    Hears 0 0 (.declined 5) (exchanged .capture none) (exchanging settlingOrder .capture none) ∧
    Hears 0 0 (.declined 5) (exchanged .void none) (exchanging settlingOrder .void none) ∧
    (Hears 0 0 (.captured 3) (exchanged .capture none) (exchanging settlingOrder .capture none) ∧
      (exchanged .capture none).amountToCapture ≠ some 3) ∧
    ((exchanging settlingOrder .void none).line 0).txQueue = [] ∧
    ((paying lockedOrder aTender).hears 0 0 .withdrawn = true ∧ expects aTender.purpose .withdrawn = false) ∧
    ((paying lockedOrder stuckTender).hears 0 0 .voided = true ∧ stuckTender.exchange ≠ .inExchange) ∧
    ((paying lockedOrder aTender).hears 1 0 .cancelled = false ∧
      ({ paying lockedOrder aTender with lines := (paying lockedOrder aTender).lines.set 1 upLine }).hears 1 0 .cancelled = true ∧
      aTender.line ≠ 1) := by
  repeat' first | apply And.intro | apply Hears.mk
  all_goals decide +kernel

theorem witness_ApprovalsThatDoNotPrint :
    let withdrawn : Tender := { exchanged .withdraw none with withdrawRequested := true }
    let cancelled : Order := { lockedOrder with cancelRequested := true }
    (Approves 0 0 1 aReference (exchanged .sale none) (.approved 0 0 1 aReference) (.approved 1 aReference) ∧
      Hears 0 0 (.approved 1 aReference) (exchanged .sale none) (exchanging lockedOrder .sale none) ∧
      1 < (exchanged .sale none).amountRequested) ∧
    (Approves 0 0 2 aReference withdrawn (.approved 0 0 2 aReference) (.approved 2 aReference) ∧
      Hears 0 0 (.approved 2 aReference) withdrawn (paying cancelled withdrawn) ∧
      (paying cancelled withdrawn).order 0 = some { cancelled with tender := some 0 } ∧ withdrawn.amountRequested ≤ 2) ∧
    (∀ k ∈ [OutKind.capture, OutKind.void], ∀ count ∈ [0, 2],
      let r : Tender := { exchanged .enquire (some k) with enquiryCount := count, amountApproved := 2 }
      Hears 0 0 (.stateApproved 2 aReference) r (paying settlingOrder r) ∧
      Hears 0 0 (.stateApproved 3 aReference) r (paying settlingOrder r) ∧ r.amountApproved ≠ 3) := by
  intro withdrawn cancelled
  refine ⟨⟨Or.inl ⟨rfl, rfl, Or.inl rfl⟩, ?_, ?_⟩, ⟨Or.inl ⟨rfl, rfl, Or.inr rfl⟩, ?_, ?_, ?_⟩, ?_⟩
  case refine_6 =>
    intro k hk count hc
    simp only [List.mem_cons, List.not_mem_nil, or_false] at hk hc
    rcases hk with rfl | rfl <;> rcases hc with rfl | rfl <;> refine ⟨⟨?_, ?_, ?_, ?_, ?_⟩, ⟨?_, ?_, ?_, ?_, ?_⟩, ?_⟩ <;> decide +kernel
  all_goals first | decide +kernel | (apply Hears.mk <;> decide +kernel)

theorem witness_AnswersUnderEveryPurpose :
    (∀ k ∈ [OutKind.withdraw, OutKind.capture, OutKind.void], ∀ status ∈ [NoMoney.none, .declined, .voided],
      Hears 0 0 (.stateNone status) (exchanged .enquire (some k)) (exchanging settlingOrder .enquire (some k))) ∧
    (∀ k ∈ [OutKind.sale, OutKind.withdraw, OutKind.capture, OutKind.void], ∀ counts ∈ [(0, 0), (2, 2), (3, 2)],
      let r : Tender := { exchanged .enquire (some k) with pendingAnswers := counts.1, enquiryCount := counts.2 }
      Hears 0 0 .statePending r (paying settlingOrder r) ∧ ((paying settlingOrder r).line 0).txQueue = [] ∧
        (settlingOrder.state = .settling)) ∧
    Hears 0 0 (.stateCaptured 2) (exchanged .enquire (some .void)) (exchanging settlingOrder .enquire (some .void)) := by
  refine ⟨fun k hk status hs => ?_, fun k hk counts hc => ?_, ?_⟩
  · simp only [List.mem_cons, List.not_mem_nil, or_false] at hk hs
    rcases hk with rfl | rfl | rfl <;> rcases hs with rfl | rfl | rfl <;> apply Hears.mk <;> decide +kernel
  · simp only [List.mem_cons, List.not_mem_nil, or_false] at hk hc
    rcases hk with rfl | rfl | rfl | rfl <;> rcases hc with rfl | rfl | rfl <;>
      refine ⟨⟨?_, ?_, ?_, ?_, ?_⟩, ?_, ?_⟩ <;> decide +kernel
  · apply Hears.mk <;> decide +kernel

theorem witness_EveryPurposeGoesOverdue :
    ∀ r ∈ [exchanged .capture none, exchanged .void none, exchanged .withdraw none, { exchanged .withdraw none with saleSent := false },
        { exchanged .enquire (some .sale) with enquiryCount := 1 }, { exchanged .enquire (some .sale) with enquiryCount := 2 }],
      (paying settlingOrder r).tender 0 = some r ∧ (paying settlingOrder r).part.inReset = false ∧ r.replyDeadline ≠ none ∧
      r.exchange = .inExchange ∧ ((paying settlingOrder r).line r.line).state = .up ∧ ((paying settlingOrder r).line r.line).txQueue = [] ∧
      (paying settlingOrder r).exchangeQueue r.line = [] ∧
      (paying settlingOrder r).order r.order = some { settlingOrder with tender := some 0 } := by
  intro r hr
  simp only [List.mem_cons, List.not_mem_nil, or_false] at hr
  rcases hr with rfl | rfl | rfl | rfl | rfl | rfl <;> (repeat' apply And.intro) <;> decide +kernel

theorem witness_AnIdleLineEnquires :
    Reaches (.enquireTender 0) (paying lockedOrder stuckTender) ∧ (paying lockedOrder stuckTender).exchanging 0 = none ∧
    (paying lockedOrder stuckTender).tenders.inService[stuckTender.line] = true ∧
    ((paying lockedOrder stuckTender).line stuckTender.line).state = .up ∧ stuckTender.exchange = .none ∧ stuckTender.unresolved = true := by
  repeat' apply And.intro
  all_goals decide +kernel

/-! ### Further clauses: engines and the management bus -/

theorem witness_OverrunsOfTheReceiveBuffer :
    ∀ s ∈ [flying { onlineEngine with rxBuffer := [⟨1, []⟩, ⟨1, []⟩] },
        withEngine { huntingEngine with rxBuffer := [⟨1, []⟩, ⟨1, []⟩] } live],
      2 ≤ (s.engine 0).rxBuffer.length ∧ s.part.inReset = false ∧ (s.engine 0).link ≠ .absent ∧ (0x11 : Byte) ≠ 0xA5 ∧
      ((s.engine 0).link = .hunting ∨ ((s.engine 0).link = .online ∧ ∃ h ∈ (s.engine 0).sheets, h.state ≠ .unknown)) := by
  intro s hs
  simp only [List.mem_cons, List.not_mem_nil, or_false] at hs
  rcases hs with rfl | rfl <;> (repeat' apply And.intro) <;> decide +kernel

theorem witness_EveryTransferOfTheBus :
    (Reaches .clearBusError { live with thermal := { live.thermal with state := .stopped } } ∧
      ({ live with thermal := { live.thermal with state := .stopped } } : State).firstPresent live.thermal.cursor = some 0) ∧
    (let s : State := { claiming (.settingsRead 0 1) with
       bus := { (claiming (.settingsRead 0 1)).bus with claims := [.settingsWrite 16 [1, 2], .recover] } }
     s.bus.current = some (.settingsRead 0 1) ∧ s.bus.claims = .settingsWrite 16 [1, 2] :: [.recover]) ∧
    (let s : State := { polling false with params := { live.params with presentMask := 2 } }
     s.bus.current = some (.poll 0 false) ∧ s.present 0 = false) ∧
    ((polling false).present 0 = true ∧ (polling true).thermal.state = .running) ∧
    ((claiming (.settingsWrite 0x123 [7])).bus.current = some (.settingsWrite (0x123 : Word16).toNat [7]) ∧
      (0x01 : Byte).toNat = (0x123 : Word16).toNat / 256 ∧ (0x23 : Byte).toNat = (0x123 : Word16).toNat % 256) ∧
    (reading.bus.current = some .loadImage ∧ reading.loader.option = some 0x01 ∧ starting.bus.current = some .loadOption ∧
      live.bus.current = none) := by
  repeat' apply And.intro
  all_goals decide +kernel

/-! ### Further clauses: settlement, lost lines and lines that come up -/

/-- An APPROVED tender of order 0 at rest. -/
def approvedTender : Tender :=
  { aTender with
    money := .approved, exchange := .none, phase := none, replyDeadline := none, amountApproved := 2, reference := some aReference }
/-- A PRINTING order whose only copy is in flight. -/
def lastPrinting : Order := { printing with lines := [{ aLine with inFlight := 1 }] }
/-- That copy on engine 0, and tender 0 on line 0, which is UP and in service. -/
def lastCopy (o : Order) (r : Tender) : State :=
  let s := paying o r
  withFrame 0 readyFrame (allDisabled (withEngine { onlineEngine with sheets := [aSheet], nextTag := 2 } s))
/-- The same with the line out of service. -/
def outOfService (s : State) : State := { s with tenders := { s.tenders with inService := s.tenders.inService.set 0 false } }
/-- The Exchange Queue of line 0 holds these tenders. -/
def withQueue (q : List Nat) (s : State) : State := { s with tenders := { s.tenders with queues := s.tenders.queues.set 0 q } }

/-- Where the one tender listed is tender 0, no other is present. -/
theorem only_tender {s : State} {r q : Tender} {k : Nat} (h : s.tenders.tenders = [(0, r)]) (hk : s.tender k = some q) : k = 0 ∧ q = r := by
  unfold State.tender at hk
  rw [h] at hk
  unfold find at hk
  split at hk
  · next zero => exact ⟨zero.symm, by cases hk; rfl⟩
  · cases hk

/-- A line that is free for tender 0, the only one listed. -/
theorem is_free {s : State} {r : Tender} (h : s.tenders.tenders = [(0, r)]) (service : s.tenders.inService[(0 : Fin 4)] = true)
    (queue : s.exchangeQueue 0 = []) (up : (s.line 0).state = .up) (silent : (s.line 0).txQueue = []) : IsFree 0 0 s :=
  ⟨service, queue, up, silent, by rw [h]; exact List.pairwise_singleton .., fun _ _ hk _ _ => (only_tender h hk).1⟩

/-- Tender 0, the only one listed, is in exchange on line 0. -/
theorem sole_exchange {s : State} {r : Tender} (h : s.tenders.tenders = [(0, r)]) (line : r.line = 0) (exchange : r.exchange = .inExchange) :
    SoleExchange 0 0 r s :=
  ⟨by unfold State.tender; rw [h]; rfl, line, exchange, fun _ _ hk _ _ => (only_tender h hk).1⟩

/-- The last copy of an order: without a tender, with one to capture or to void, with one on its way to VOID, and with one that is not
APPROVED; with the line free, out of service, and busy with another tender. -/
theorem witness_TheLastCopySettlesTheOrder :
    let l := { aLine with inFlight := 1 }
    let o := { lastPrinting with tender := some 0 }
    let s := lastCopy lastPrinting approvedTender
    InFlight 0 aSheet o l s ∧ InFlight 0 aSheet lastPrinting l (withOrder 0 lastPrinting s) ∧ IsFree 0 0 s ∧
    MustWait 0 0 (outOfService s) ∧ MustWait 0 0 (withTender 1 aTender s) ∧
    (∀ m ∈ (o.setLine { l with inFlight := 0, delivered := 1 }).lines, m.waiting = 0 ∧ m.inFlight = 0) ∧
    (∀ m ∈ (o.setLine (l.charged { o with reprintAllowance := 0 } .aborted)).lines, m.waiting = 0 ∧ m.inFlight = 0) ∧
    (∃ m ∈ (o.setLine (l.charged o .linkLost)).lines, 0 < m.waiting) ∧
    (s.tender 0 = some approvedTender ∧ approvedTender.money = .approved ∧ approvedTender.exchange = .none ∧
      approvedTender.purpose ≠ .void ∧ approvedTender.pendingPurpose ≠ some .void) ∧
    (({ approvedTender with purpose := .enquire, pendingPurpose := some .void } : Tender).pendingPurpose = some .void ∧
      aTender.money ≠ .approved) := by
  intro l o s
  refine ⟨?_, ?_, is_free rfl rfl rfl rfl rfl, Or.inl rfl, Or.inr ⟨1, aTender, ?_⟩, ?_⟩
  · constructor <;> decide +kernel
  · constructor <;> decide +kernel
  · decide +kernel
  · decide +kernel

/-- A READY of an engine ONLINE with a SENT sheet, within the window and past it. -/
theorem witness_RestartedEngineLosesTheSheet :
    Offers 0 ⟨0x11, 1 :: (word2 9 ++ word2 0 ++ [2])⟩ (flying onlineEngine) ∧ ((flying onlineEngine).engine 0).link = .online ∧
    aSheet.state = .sent ∧ inWindow aSheet.tag ((flying onlineEngine).engine 0).nextTag 0 = true ∧
    inWindow aSheet.tag ((flying onlineEngine).engine 0).nextTag 9 = false ∧ atOrBefore aSheet.tag 0 = false := by
  repeat' apply And.intro
  all_goals decide +kernel

/-- Settlement after a notice, a cancellation and an approval. -/
theorem witness_OtherEventsSettleTheOrder :
    (let o := { lastPrinting with lines := [aLine], tender := some 0 }
     let s := { lastCopy { lastPrinting with lines := [aLine] } approvedTender with store := { live.store with notices := [0] } }
     TablesSound s ∧ s.store.notices = [(0 : Fin 1024).val] ∧ s.order 0 = some o ∧ o.state = .printing ∧ (∃ l ∈ o.lines, l.frame = 0) ∧
       (∀ m x, m ≠ 0 → s.order m = some x → x.state = .printing → ∀ l ∈ x.lines, l.frame ≠ 0) ∧
       (aLine.stop .storeError).waiting = 0 ∧ Reaches (.cancelOrder 0) s ∧ ∀ l ∈ o.lines, l.inFlight = 0) ∧
    (∃ l ∈ printing.lines, 0 < l.inFlight) ∧
    (let s := exchanging lockedOrder .sale none
     Approves 0 0 2 aReference (exchanged .sale none) (.approved 0 0 2 aReference) (.approved 2 aReference) ∧
       Hears 0 0 (.approved 2 aReference) (exchanged .sale none) s ∧
       (∀ l ∈ lockedOrder.lines, l.inFlight = 0 ∧ s.frameReady l.frame = false) ∧ lockedOrder.valueDelivered = 0 ∧
       (exchanged .sale none).amountRequested ≤ 2 ∧ IsFree 0 0 s) := by
  refine ⟨⟨⟨List.Pairwise.nil, List.pairwise_singleton .., List.pairwise_singleton ..⟩, rfl, rfl, rfl, ⟨aLine, ?_⟩, ?_, ?_, ?_, ?_⟩, ?_, ?_⟩
  · decide +kernel
  · intro m x hm hx
    unfold State.order at hx
    have hx : find m [(0, { lastPrinting with lines := [aLine], tender := some 0 })] = some x := hx
    unfold find at hx
    split at hx
    · next zero => exact absurd zero.symm hm
    · cases hx
  · decide +kernel
  · exact ⟨rfl, Or.inr ⟨rfl, Or.inl rfl, Or.inl rfl, rfl⟩⟩
  · decide +kernel
  · decide +kernel
  · refine ⟨Or.inl ⟨rfl, rfl, Or.inl rfl⟩, ?_, ?_, rfl, ?_, is_free rfl rfl rfl rfl rfl⟩
    · apply Hears.mk <;> decide +kernel
    · decide +kernel
    · decide +kernel

/-- Every row of the table of section 5.7, with the sale begun on the line and not. -/
theorem witness_LostLinesPlaceTheTender :
    (∀ r ∈ [aTender, exchanged .withdraw none, { exchanged .withdraw none with saleSent := false }, exchanged .capture none,
        { exchanged .void none with messageBegun := false }, exchanged .enquire (some .sale)],
      SoleExchange 0 0 r (paying lockedOrder r) ∧ ((paying lockedOrder r).line 0).state = .up ∧
        Ascending (paying lockedOrder r).tenders.tenders) ∧
    (aTender.placement ≠ none ∧ ({ exchanged .withdraw none with saleSent := false } : Tender).placement = none) ∧
    (let r : Tender := { aTender with saleSent := false, messageBegun := false }
     r.reported 0 ((talking .own).line 0) = aTender ∧ r.reported 0 ((talking .idle).line 0) = r) ∧
    (NoExchange 0 (paying lockedOrder stuckTender) ∧ ((paying lockedOrder stuckTender).line 0).state = .up) ∧
    (∀ e, ((paying lockedOrder aTender).engine e).streaming = none) := by
  refine ⟨fun r hr => ?_, ?_, ?_, ⟨fun k x hk _ => ?_, rfl⟩, ?_⟩
  · simp only [List.mem_cons, List.not_mem_nil, or_false] at hr
    rcases hr with rfl | rfl | rfl | rfl | rfl | rfl <;> exact ⟨sole_exchange rfl rfl rfl, rfl, List.pairwise_singleton ..⟩
  · decide +kernel
  · decide +kernel
  · rw [(only_tender rfl hk).2]; decide
  · decide +kernel

/-- Line 0 comes up with nothing waiting, with the head of its queue, and with an unresolved tender. -/
theorem witness_LinesThatComeUpServeTheirQueue :
    let broken (r : Tender) : State := outOfService (withLine { upLine with state := .broken } (paying lockedOrder r))
    let queued : Tender := { aTender with exchange := .waitingLine, phase := none, replyDeadline := none }
    ((broken approvedTender).exchangeQueue 0 ++ (broken approvedTender).unresolvedOn 0 = [] ∧ NoExchange 0 (broken approvedTender)) ∧
    ((withQueue [0] (broken queued)).exchangeQueue 0 ++ (withQueue [0] (broken queued)).unresolvedOn 0 = 0 :: [] ∧
      NoExchange 0 (withQueue [0] (broken queued)) ∧ ((withQueue [0] (broken queued)).line 0).txQueue = [] ∧
      (withQueue [0] (broken queued)).tender 0 = some queued) ∧
    ((broken stuckTender).exchangeQueue 0 ++ (broken stuckTender).unresolvedOn 0 = 0 :: [] ∧ NoExchange 0 (broken stuckTender)) ∧
    (Ascending (broken stuckTender).tenders.tenders ∧ ((broken stuckTender).line 0).state = .broken ∧
      ((broken stuckTender).line 0).dsr = true) ∧
    (Reaches (.setLine 0 9600 7 0 1 1) (broken stuckTender) ∧ toFlag 1 = some true ∧
      toLineMode 9600 7 0 1 = some ⟨9600, 7, .none, 1⟩) := by
  intro broken queued
  have none_of {s : State} {r : Tender} (h : s.tenders.tenders = [(0, r)]) (hr : r.exchange ≠ .inExchange) : NoExchange 0 s :=
    fun k x hk _ => by rw [(only_tender h hk).2]; exact hr
  refine ⟨⟨?_, none_of rfl ?_⟩, ⟨?_, none_of rfl ?_, ?_⟩, ⟨?_, none_of rfl ?_⟩, ⟨List.pairwise_singleton .., ?_⟩, ?_⟩
  all_goals first | decide +kernel | (repeat' apply And.intro) <;> decide +kernel

/-- A frame waits in the receive buffer, one of each kind. -/
theorem witness_TakenFramesActAsNamed :
    (let s := flying { onlineEngine with rxBuffer := [⟨0x13, word2 1⟩] }
     (s.engine 0).rxBuffer = ⟨0x13, word2 1⟩ :: [] ∧ Names 0 ⟨0x13, word2 1⟩ (.sheetDone 0 1) ∧ s.part = ⟨false, true, true⟩ ∧
       (s.engine 0).link ≠ .absent) ∧
    Names 0 ⟨0x11, 1 :: (word2 9 ++ word2 0 ++ [2])⟩ (.ready 0 1 9 0 2) ∧
    Names 0 ⟨0x12, 1 :: (word2 9 ++ word2 0 ++ [2, 3])⟩ (.status 0 1 9 0 2 3) ∧ Names 0 ⟨0x14, word2 1 ++ [7]⟩ (.sheetFault 0 1 7) ∧
    ((⟨0x13, word2 1⟩ : RawFrame).judge = some (.done 1) ∧ ((flying onlineEngine).engine 0).rxBuffer = []) :=
  ⟨⟨by decide +kernel, Or.inr (Or.inr (Or.inl ⟨1, rfl, rfl⟩)), by decide +kernel, by decide +kernel⟩, Or.inl ⟨1, 9, 0, 2, rfl, rfl⟩,
    Or.inr (Or.inl ⟨1, 9, 0, 2, 3, rfl, rfl⟩), Or.inr (Or.inr (Or.inr ⟨1, 7, rfl, rfl⟩)), by decide +kernel, by decide +kernel⟩

/-! ### Further clauses of the statements: parameters at work, pages, refusals and the pin reset -/

/-- SET PARAMETER reaches its block and stores a new value of parameter p. -/
def Stores (p v : Nat) (s : State) : Prop :=
  Reaches (.setParameter (BitVec.ofNat 8 p) (BitVec.ofNat 32 v)) s ∧ paramAdmits p v = true ∧ v ≠ s.params.get p

/-- The live part with this Free Pool, Spare Reserve and Space Wait List. -/
def withPools (free spares : List Page) (waits : List Nat) : State :=
  onStore { live.store with freePool := free, spares := spares, waitList := waits }
/-- The live part with this present mask and poll state. -/
def masked (mask : Nat) (p : PollState) : State :=
  { live with params := { live.params with presentMask := mask }, thermal := { live.thermal with state := p } }

theorem witness_ParametersAct :
    (Stores 0 65 (withPools [5] [7] []) ∧ (withPools [5] [7] []).params.spareTarget < 65 ∧ (withPools [5] [7] []).store.migrationQueue = [] ∧
      ((withPools [5] [7] []).store.spares ++ (withPools [5] [7] []).store.freePool).Nodup ∧ 1 = min (65 - 1) 1) ∧
    (Stores 0 65 (withPools [5] [7] [1]) ∧ (withPools [5] [7] [1]).store.waitList ≠ []) ∧
    (Stores 0 1 (withPools [] [4, 7] []) ∧ 1 < (withPools [] [4, 7] []).params.spareTarget ∧ 1 < (withPools [] [4, 7] []).store.spares.length ∧
      Stores 0 2 (withPools [] [4, 7] []) ∧ (withPools [] [4, 7] []).store.spares.length ≤ 2) ∧
    (Stores 1 1 live ∧ live.store.freePool.length < 1 ∧ Stores 1 0 live) ∧
    Stores 7 0 live ∧
    (Stores 11 0 live ∧ Stores 11 1 live ∧ live.params.presentMask ≠ 0) ∧
    (Stores 11 15 (masked 0 .idle) ∧ (masked 15 .idle).firstPresent (masked 0 .idle).thermal.cursor = some 0 ∧
      (masked 0 .idle).bus.current = none ∧ (masked 0 .idle).bus.claims = [] ∧ (claiming .recover).bus.current ≠ none ∧
      (claiming .recover).bus.claims = [] ∧ Stores 11 15 (masked 0 .stopped) ∧ (masked 0 .stopped).thermal.state ≠ .idle) ∧
    Stores 16 1000 live ∧ (Stores 2 15 live ∧ 2 ∉ [0, 1, 3, 7, 11, 16]) := by
  repeat' apply And.intro
  all_goals decide +kernel

theorem witness_ThePatrolFollows (p : PatrolState) :
    Stores 3 0 (onStore { live.store with patrol := p }) ∧ Stores 3 1 (onStore { live.store with patrol := p }) := by
  cases p
  all_goals (repeat' apply And.intro) <;> decide +kernel

/-- Raster channels 0 and 2 wait, and card links 1 and 3, with channel 1 and link 1 granted last. -/
theorem witness_PortGoesRound :
    let q : Port := { live.store.port with
      rasterLast := 1, linkLast := 1, waiting := [.raster 0 5 0 16, .raster 2 6 0 16, .block 1 0 0 [1] false, .block 3 0 0 [1] false] }
    let r : Port := { q with waiting := [.block 1 0 0 [1] false, .block 3 0 0 [1] false, .migration 5 6 0], starvation := 31 }
    q.choose = some (.raster 2 6 0 16) ∧ (2 - q.rasterLast - 1 : Fin 3) = 0 ∧ (0 - q.rasterLast - 1 : Fin 3) = 1 ∧
    r.choose = some (.block 3 0 0 [1] false) ∧ (∃ b ∈ r.waiting, b.rank = 3) ∧ r.starvation ≤ 32 ∧
    ∀ b ∈ q.waiting, b.rank ≠ 3 := by decide +kernel

/-- The READY frame 0 is released while frame 1 of this byte length waits. -/
def releasing (byteLength : Nat) : State :=
  withFrame 1 (newFrame .host byteLength) (withFrame 0 readyFrame (onStore { live.store with waitList := [1] }))
/-- Frame 0 is released at the head of the Space Wait List, in front of frame 1, while the Free Pool holds one page. -/
def leaving : State :=
  withFrame 1 (newFrame .host 65536) (withFrame 0 (newFrame .host 131072)
    (onStore { live.store with waitList := [0, 1], freePool := [5] }))

theorem witness_WaitingFramesAreServed :
    (Reaches (.releaseFrame 0) (releasing 65536) ∧ (releasing 65536).frame 0 = some readyFrame ∧ (releasing 65536).store.waitList = 1 :: [] ∧
      (releasing 65536).frame 1 = some (newFrame .host 65536) ∧ readyFrame.references = 0 ∧ readyFrame.pins = 0 ∧
      (releasing 65536).store.migration = none ∧ pagesFor 65536 = 1 ∧ (releasing 65536).store.freePool.length = 0 ∧
      readyFrame.extent.length = 1) ∧
    (pagesFor 131072 = 2 ∧ (releasing 131072).store.freePool.length = 0 ∧
      readyFrame.extent = [5] ∧ (releasing 131072).attr 5 = ⟨0, false, 0⟩ ∧ (releasing 131072).params.migrationThreshold = 4) ∧
    (Reaches (.releaseFrame 0) leaving ∧ leaving.frame 0 = some (newFrame .host 131072) ∧ leaving.store.waitList = [0, 1] ∧
      leaving.frame 1 = some (newFrame .host 65536) ∧ leaving.store.freePool.length = 1) := by
  repeat' apply And.intro
  all_goals decide +kernel

/-- Where frame 0 is the only frame and READY, its pages lie in it alone. -/
theorem lies_in {s : State} {f : Frame} {p : Page} (frames : s.store.frames = [(0, f)]) (ready : f.state = .ready) (page : p ∈ f.extent)
    (orders : Ascending s.book.orders) (tenders : Ascending s.tenders.tenders) : LiesIn p 0 f s where
  owner := by simp [State.owner, frames, page]
  frame := by rw [State.frame, frames]; rfl
  page := page
  ready := ready
  alone := fun m g hm hg => by rw [State.frame, frames] at hg; exact absurd (find_only hg).1 hm
  tables := ⟨by rw [frames]; exact List.pairwise_singleton .., orders, tenders⟩

/-- Frame 0 READY on pages 5 and 6, of 70000 bytes. -/
def longFrame : Frame := { readyFrame with byteLength := 70000, extent := [5, 6] }

/-- Each read meets an uncorrectable group in a page of a READY frame; a migration of the page is in progress, with nothing queued. -/
theorem witness_ReadyFramesAreDamaged :
    (let s := onPort (.hostRead 0 65535 2) (withFrame 0 longFrame live)
     s.store.port.busy = some (.hostRead 0 65535 2) ∧ LiesIn 5 0 longFrame s ∧ LiesIn 6 0 longFrame s ∧
       longFrame.extent[65535 / 65536]? = some 5 ∧ longFrame.extent[65535 / 65536 + 1]? = some 6) ∧
    ((onPort (.scrub 5) framed).store.port.busy = some (.scrub 5) ∧ LiesIn 5 0 readyFrame (onPort (.scrub 5) framed)) ∧
    ((migrating 15).store.migration = some ⟨5, 6, 0, 15⟩ ∧ LiesIn 5 0 readyFrame (migrating 15) ∧
      (migrating 15).store.migrationQueue = [] ∧ (migrating 15).store.spares.length < (migrating 15).params.spareTarget) ∧
    LiesIn 5 0 readyFrame (rastering .reading none) ∧
    ((0 < readyFrame.references ∨ readyFrame.releasePending = false) ∧ ∀ a ∈ (migrating 15).store.port.waiting, a.isHostOn 0 = false) := by
  have none_listed {α : Type} : Ascending ([] : List (Nat × α)) := List.Pairwise.nil
  refine ⟨⟨rfl, lies_in rfl rfl (by decide) none_listed none_listed, lies_in rfl rfl (by decide) none_listed none_listed, rfl, rfl⟩,
    ⟨rfl, lies_in rfl rfl (by decide) none_listed none_listed⟩, ⟨rfl, lies_in rfl rfl (by decide) none_listed none_listed, rfl, ?_⟩,
    lies_in rfl rfl (by decide) (List.pairwise_singleton ..) none_listed, ?_, ?_⟩
  all_goals decide +kernel

/-- Page 5 of the READY frame 0 is read by the patrol, with this wear and reserve. -/
def wearing (wear : Nat) (spares queue : List Page) : State :=
  let s := onPort (.scrub 5) framed
  { s with store := { s.store with attrs := [(5, ⟨wear, false, 0⟩)], spares := spares, migrationQueue := queue } }

theorem witness_WornPagesMigrate :
    (∀ x ∈ [wearing 3 [9] [], wearing 2 [9] [], wearing 3 [] [], wearing 3 [9] [7]],
      x.store.port.busy = some (.scrub 5) ∧ x.owner 5 = some 0 ∧ x.frame 0 = some readyFrame ∧ readyFrame.state = .ready ∧
        readyFrame.retiring = false) ∧
    (Admissible 5 (min 15 (3 + 1)) (wearing 3 [9] []) ∧ Admissible 5 4 (wearing 3 [] []) ∧ Admissible 5 4 (wearing 3 [9] [7])) ∧
    ¬ Admissible 5 (min 15 (2 + 1)) (wearing 2 [9] []) ∧
    ((wearing 3 [9] []).store.migrationQueue = [] ∧ (wearing 3 [9] []).store.migration = none ∧ (wearing 3 [9] []).store.spares = 9 :: [] ∧
      (wearing 3 [] []).store.spares = [] ∧ (wearing 3 [9] [7]).store.migrationQueue ≠ []) := by
  refine ⟨by decide +kernel, ⟨?_, ?_, ?_⟩, fun h => absurd h.1 (by decide +kernel), by decide +kernel⟩
  all_goals exact ⟨by decide +kernel, by decide +kernel, fun m hm => absurd hm (Option.some_ne_none m).symm, by decide +kernel⟩

/-- The last burst of a migration while page 7, of frame 1, waits to migrate. -/
def finishing (spares free : List Page) (target : Nat) : State :=
  let s := withFrame 1 { readyFrame with extent := [7] } (migrating 15)
  { s with params := { s.params with spareTarget := target }
           store := { s.store with migrationQueue := [7], spares := spares, freePool := free } }

theorem witness_TheNextMigrationBegins :
    (∀ s ∈ [finishing [9] [] 1, finishing [] [] 1, finishing [] [8] 1],
      s.store.port.busy = some (.migration 5 6 (15 * 4096)) ∧ s.store.migration = some ⟨5, 6, 0, 15⟩ ∧ s.frame 0 = some readyFrame ∧
        s.store.migrationQueue = 7 :: []) ∧
    TablesSound (finishing [9] [] 1) ∧ TablesSound (finishing [] [8] 1) ∧ ((7 : Page) ≠ 5 ∧ (7 : Page) ≠ 6) ∧
    ((finishing [9] [] 1).store.spares = 9 :: [] ∧ (finishing [9] [] 1).params.spareTarget ≤ (finishing [9] [] 1).store.spares.length) ∧
    ((finishing [] [] 1).store.spares = [] ∧ (finishing [] [] 1).store.freePool = []) ∧
    ((finishing [] [8] 1).store.freePool = 8 :: [] ∧ (finishing [] [8] 1).store.waitList = [] ∧ (finishing [] [8] 1).params.spareTarget = 1) ∧
    ((migrating 15).store.migrationQueue = [] ∧ (migrating 15).store.freePool = []) := by
  have ascending {α : Type} {x y : α} : Ascending [(0, x), (1, y)] :=
    List.pairwise_cons.mpr ⟨fun a ha => by rw [List.mem_singleton.mp ha]; exact Nat.zero_lt_one, List.pairwise_singleton ..⟩
  refine ⟨by decide +kernel, ⟨ascending, List.Pairwise.nil, List.Pairwise.nil⟩, ⟨ascending, List.Pairwise.nil, List.Pairwise.nil⟩,
    by decide, ?_, ?_, ?_, ?_⟩
  all_goals decide +kernel

/-- A burst of a migration that was abandoned when its frame was damaged is still in progress. -/
theorem witness_AbandonedBurstsWriteNothing :
    let f : Frame := { readyFrame with state := .damaged, pins := 1 }
    let s := onPort (.migration 5 6 4096) (withFrame 0 f live)
    s.store.port.busy = some (.migration 5 6 4096) ∧ s.store.migration = none ∧ s.owner 5 = some 0 ∧ s.frame 0 = some f ∧
    f.state ≠ .ready := by decide +kernel

/-- Order 0 is CLOSED, of two lines that cite frame 0, which is pending release or not. -/
def retiring (pending : Bool) : State :=
  withOrder 0 { printing with state := .closed } (withFrame 0 { readyFrame with references := 2, releasePending := pending } live)

theorem witness_RetiredOrdersFreeTheirFrames :
    Reaches (.retireOrder 0) (retiring true) ∧ (retiring true).order 0 = some { printing with state := .closed } ∧
    2 = (printing.lines.countP fun l => l.frame == 0) ∧ 0 ∉ (retiring true).store.waitList ∧ (retiring true).store.port.busy = none ∧
    (retiring true).frame 0 = some { readyFrame with references := 2, releasePending := true } ∧
    (∀ a ∈ (retiring true).store.port.waiting, a.isHostOn 0 = false) ∧
    (Reaches (.retireOrder 0) (retiring false) ∧ ∀ e ∈ (retiring false).store.frames, e.2.releasePending = false) := by
  repeat' apply And.intro
  all_goals decide +kernel

theorem witness_AbsentRecordsAreRefused :
    (Reaches (.removeLine 64 1) live ∧ Reaches (.removeLine 63 1) live ∧ Reaches (.lockOrder 64) live ∧ Reaches (.lockOrder 63) live ∧
      Reaches (.cancelOrder 64) live ∧ Reaches (.cancelOrder 63) live ∧ Reaches (.setPriority 64 0) live ∧
      Reaches (.setPriority 63 0) live ∧ Reaches (.retireOrder 64) live ∧ Reaches (.retireOrder 63) live ∧
      Reaches (.writeOffOrder 64) live ∧ Reaches (.writeOffOrder 63) live ∧ live.order 63 = none) ∧
    (Reaches (.enquireTender 32) live ∧ Reaches (.enquireTender 31) live ∧ live.tender 31 = none) ∧
    (Reaches (.writeOffOrder 0) selling ∧ selling.order 0 = some anOrder ∧ anOrder.tender = none) ∧
    (Reaches (.setLine 4 9600 8 0 1 1) live ∧ Reaches (.readLine 4 0) live ∧ 3 < (4 : Byte).toNat) := by
  repeat' apply And.intro
  all_goals decide +kernel

/-- The receipt code after 999999, and after a code that a present order holds. -/
theorem witness_ReceiptCodesStepAndWrap :
    let s (last : Option Nat) : State := withOrder 0 { anOrder with receiptCode := 107919 } { live with book := { live.book with lastCode := last } }
    (s (some 999999)).nextCode = 7918 ∧ (s (some 100000)).nextCode = 115838 ∧ (s none).nextCode = 100000 ∧
    (s none).params.codeSeed = 100000 ∧ (s none).book.orders.length < 1000000 := by decide +kernel

/-- A waiting, a queued and a filling frame meet the pin reset with nothing at the store port; the part is held with sensors to poll. -/
theorem witness_PinResetDamagesFrames :
    (∀ f ∈ [newFrame .host 16, cardFrame, { cardFrame with state := .filling }],
      TablesSound (withFrame 0 f live) ∧ (withFrame 0 f live).frame 0 = some f ∧
        (f.state = .waitingSpace ∨ f.state = .queued ∨ f.state = .filling)) ∧
    ((releasing 65536).store.waitList.Nodup ∧ TablesSound (releasing 65536) ∧
      ∀ n ∈ (releasing 65536).store.waitList, ∃ f, (releasing 65536).frame n = some f ∧ f.state = .waitingSpace) ∧
    (selling.order 0 = some anOrder ∧ anOrder.state = .open ∧ TablesSound selling) ∧
    (held.thermal.state ≠ .stopped ∧ held.firstPresent held.thermal.cursor = some 0 ∧ held.params.presentMask ≠ 0 ∧
      held.bus.current = none ∧ held.bus.claims = []) := by
  have two : TablesSound (releasing 65536) :=
    ⟨List.pairwise_cons.mpr ⟨fun a ha => by rw [List.mem_singleton.mp ha]; decide, List.pairwise_singleton ..⟩, List.Pairwise.nil,
      List.Pairwise.nil⟩
  refine ⟨fun f hf => ⟨⟨List.pairwise_singleton .., List.Pairwise.nil, List.Pairwise.nil⟩, rfl, ?_⟩,
    ⟨by decide +kernel, two, fun n hn => ?_⟩, ⟨rfl, rfl, List.pairwise_singleton .., List.pairwise_singleton .., List.Pairwise.nil⟩,
    by decide +kernel⟩
  · revert f; decide +kernel
  · rw [List.mem_singleton.mp hn]
    exact ⟨newFrame .host 65536, by decide +kernel⟩

/-! ### What a step does in the cases that are easy to miss -/

/-- A block that waits when its frame is damaged is dropped at its grant, although a new import has the frame's number by then. -/
theorem test_waiting_block_of_an_ended_import :
    let s := filling progress .free
    let queuedBlock : State := { s with store := { s.store with port := { s.store.port with
      busy := some (.scrub 9), waiting := [.block 0 0 0 [1] false] } } }
    let t := queuedBlock.damageFrame 0 .removed
    t.store.port.waiting = [.block 0 0 0 [1] true] ∧
    ((filling progress .free).isDropped (.block 0 0 0 [1] true) = some 0 ∧
      (filling progress .free).isDropped (.block 0 0 0 [1] false) = none) := by decide +kernel

/-- IMPORT FRAME finds pages, joins the empty queue of its slot, and the free link sends READ RUN at once. -/
theorem test_import_begins_at_once :
    let t := after (.importFrame 0 1 0 512) { carded with store := { carded.store with freePool := [5] } }
    (t.cardLink 0).work = .readRun false 0 1 ∧ ((t.frame 0).map (·.state)) = some .filling ∧
    (t.slot 0).progress = some ⟨0, 0, .running, 1, 0, false⟩ := by decide +kernel

/-- A request whose payload holds 0x5D, sent byte by byte, is handed over as its REQUEST_FRAME is. -/
theorem test_bytes_of_a_frame :
    let crc := orderLinkCrc [0x05, 0x00, 0x01, 0x5D]
    let bytes := [Instr.requestFrameStart, .overrunByte 0x05, .overrunByte 0x00, .overrunByte 0x01, .requestFrameStart,
      .overrunByte (BitVec.ofNat 8 (crc.toNat / 256)), .overrunByte (BitVec.ofNat 8 (crc.toNat % 256))]
    (afterAll bytes selected).link = (after (.requestFrame 0x05 1 [0x5D] crc) selected).link := by decide +kernel

theorem test_serial_output_is_released :
    unselected.sdoPin = none ∧ held.sdoPin = none ∧ selected.sdoPin = some 0xFF := by decide +kernel

/-- The bytes of a SETTINGS READ of the last address, and of a poll of head 0. -/
theorem test_transfer_bytes :
    (claiming (.settingsRead 0x1FF 1)).busOut = [.start, .sends 0xAC, .sends 0x01, .sends 0xFF, .start, .sends 0xAD, .reads 1, .stop] ∧
    (polling false).busOut = [.start, .sends 0x98, .sends 0x00, .start, .sends 0x99, .reads 2, .stop] := by decide +kernel

/-- An edit that changes nothing is a restart all the same: it sets the order's flag although there is no deadline to move. -/
theorem test_restart_of_an_equal_edit_sets_the_flag :
    let o : Order := { anOrder with idleDeadline := none }
    let s : State := withOrder 0 o { selling with params := { selling.params with idleLimit := 0 } }
    (after (.setPriority 0 0) s).link.flags = [orderFlag 0] := by decide +kernel

/-- The request that releases engine 0 finds three pairs, of two EXPRESS orders and a STANDARD one. -/
def contested : State :=
  let s := withEngine { onlineEngine with holds := ⟨true, false, false, false⟩ } threePairs
  { s with link := live.link }

/-- The pairs of that state and their orders. -/
theorem contested_candidates {x : Nat × Nat} {p : Order} (h : IsCandidate 0 x p contested) :
    (x = (5, 1) ∧ p.station = 1 ∧ p.priority = .express) ∨ (x = (8, 2) ∧ p.station = 2 ∧ p.priority = .express) ∨
      (x = (3, 1) ∧ p.station = 0 ∧ p.priority = .standard) := by
  obtain ⟨hx, ho, -⟩ := h
  have hx : x ∈ [(5, 1), (8, 2), (3, 1)] := hx
  simp only [List.mem_cons, List.not_mem_nil, or_false] at hx
  rcases hx with rfl | rfl | rfl
  · exact Or.inl ⟨rfl, by cases ho; exact ⟨rfl, rfl⟩⟩
  · exact Or.inr (Or.inl ⟨rfl, by cases ho; exact ⟨rfl, rfl⟩⟩)
  · exact Or.inr (Or.inr ⟨rfl, by cases ho; exact ⟨rfl, rfl⟩⟩)

theorem witness_SeveralCandidates :
    Reaches (.releaseEngine 0) contested ∧
    Chosen 0 (5, 1) { printing with station := 1, priority := .express, lines := [{ aLine with quantity := 9 }] } contested ∧
    (∀ q o, ¬ IsCandidate 0 q o { releasable with ready := [] }) := by
  refine ⟨⟨rfl, Or.inr ⟨rfl, Or.inl rfl, Or.inl rfl, rfl⟩⟩, ?_, fun q o h => List.not_mem_nil h.1⟩
  constructor
  · exact ⟨by decide +kernel, by decide +kernel, { aLine with quantity := 9 }, by decide +kernel⟩
  · intro _ _; decide +kernel
  · intro h; exact absurd h (by decide)
  · rintro x p pointer rfl hc hp
    rcases contested_candidates hc with ⟨-, hs, -⟩ | ⟨-, hs, -⟩ | ⟨-, -, hs⟩
    · rw [hs]
    · rw [hs]; decide +kernel
    · rw [hs] at hp; cases hp
  · exact ⟨[], [(8, 2), (3, 1)], rfl, fun x hx => absurd hx List.not_mem_nil⟩

/-- A card that is removed while its link works: the READ RUN of the other slot is sent at once. -/
theorem test_removal_serves_the_other_slot :
    let s := shared { readySlot with importQueue := [0] } (.readRun false 0 1)
    let t := after (.cardRemoval 0) s
    (t.slot 0).state = .empty ∧ (t.cardLink 0).work = .readRun true 0 1 ∧ (t.frame 0).map (·.state) = some .filling := by decide +kernel

/-- A page that goes to another frame while its portion waits ends the SCRUB PAGE step at that portion's end: it is answered with its
counts, although the page is eligible again by then. -/
theorem test_page_that_left_ends_its_step :
    let s : State := { framed with
      link := { live.link with state := .working, working := some (.scrubPage 5) }
      store := { framed.store with
        scrubStep := some ⟨5, 0, 2, 0, true, false, false⟩, frames := [(0, { readyFrame with releasePending := true })]
        port := { live.store.port with waiting := [.scrub 5] } } }
    let gone := s.retireFrame 0 { readyFrame with releasePending := true }
    let again := withFrame 1 readyFrame (onPort (.scrub 5) gone)
    let t := after (.scrubPortionComplete .none) again
    gone.store.scrubStep.map (·.left) = some true ∧ again.scrubbable 5 = true ∧ t.store.scrubStep = none ∧
    t.link.response = some ⟨.ok, [0, 2]⟩ := by decide +kernel

/-- A poll that became void while its poller went IDLE ends STUCK, and the poller stops all the same. -/
theorem test_stuck_poll_stops_an_idle_poller :
    let t := after (.pollTransferEnd .stuck 0 0) { polling true with thermal := { live.thermal with state := .idle } }
    t.thermal.state = .stopped ∧ t.thermal.stopCause = some .stuck ∧ t.hasCondition .busStuck = true := by decide +kernel

/-- The causes of LINE LOST: SET LINE with enable OFF and with another mode, DSR and a break. -/
theorem test_causes_of_line_lost :
    (((after (.setLine 0 9600 8 0 1 0) selling).line 0).lossCause = some .down ∧
      ((after (.setLine 0 9600 7 0 1 1) selling).line 0).lossCause = some .mode ∧
      ((after (.breakDetected 0) selling).line 0).lossCause = some .broken ∧
      ((after (.dsrFilterExpiry 0) (after (.dsrChange 0 false) selling)).line 0).lossCause = some .down) ∧
    ((after (.breakDetected 0) (withLine { upLine with state := .down } live)).line 0).lossCause = none := by decide +kernel

/-- On TXD 0x43 in 7 bits with even parity and 2 stop bits, and in 8 bits with odd parity; a break in the middle leaves it on TXD, and at
its end TXD is at rest. -/
theorem test_levels_of_a_character :
    let s (m : LineMode) : State := withLine { upLine with mode := some m, txQueue := [⟨.sale, 0, [0x43], true⟩], txChar := .own }
      (talking .own)
    let t := after (.breakDetected 0) (s ⟨9600, 7, .even, 2⟩)
    let levels := [false, true, true, false, false, false, false, true, true, true, true]
    (s ⟨9600, 7, .even, 2⟩).txd 0 = levels ∧
    (s ⟨9600, 8, .odd, 1⟩).txd 0 = [false, true, true, false, false, false, false, true, false, false, true] ∧
    (s ⟨9600, 8, .none, 1⟩).txd 0 = [false, true, true, false, false, false, false, true, false, true] ∧
    (t.line 0).txQueue = [] ∧ t.txd 0 = levels ∧ (after (.txCharacterEnd 0) t).txd 0 = [] := by decide +kernel

/-- The polling window of a SETTINGS WRITE starts when its write has ended. -/
theorem test_polling_window_starts_after_the_write :
    let s : State := { live with bus := { Bus.reset with current := some (.settingsWrite 0 [0]), writeLeft := some 1 } }
    (match step s with
      | .next t => (t.bus.writeLeft, t.bus.ackWindow)
      | _ => (none, none)) = (none, some 10) := by decide +kernel

/-- The last copy delivered: the capture of its value is handed to the line that is free for it, and a failed one is voided. -/
theorem test_last_copy_settles_the_order :
    let s := lastCopy { lastPrinting with reprintAllowance := 0 } approvedTender
    let t := after (.sheetDone 0 1) s
    let u := after (.sheetFault 0 1 4) s
    (t.order 0).map (·.state) = some .settling ∧ ((t.tender 0).bind (·.amountToCapture)) = some 2 ∧
    ((t.line 0).txQueue.map (·.kind)) = [.capture] ∧ ((u.line 0).txQueue.map (·.kind)) = [.void] ∧
    ((after (.sheetDone 0 1) (withOrder 0 lastPrinting s)).order 0).bind (·.finish) = some .captured := by decide +kernel

/-- A READY that is taken before the relink timer expires reconciles the sheets, and a SHEET DONE that is taken before a receive fault
delivers its sheet. -/
theorem test_frames_taken_act_at_once :
    let s := withEngine { lostTrack.engine 0 with rxBuffer := [⟨0x11, [1, 0, 9, 0, 1, 2]⟩] } lostTrack
    let t := afterAll [.frameTaken 0, .relinkTimerExpiry 0] s
    let u := afterAll [.frameTaken 0, .receiveFault 0] (flying { onlineEngine with rxBuffer := [⟨0x13, word2 1⟩], rx := .marked })
    ((t.order 0).map (·.valueDelivered) = some 2 ∧ (t.engine 0).link = .online) ∧
    ((u.order 0).map (·.valueDelivered) = some 2 ∧ (u.engine 0).sheets = []) := by decide +kernel

/-- Stop-on-uncorrectable counts as it stands when the group is found, not when the step ends. -/
theorem test_stop_is_judged_at_the_finding :
    let f : Frame := { readyFrame with state := .damaged, pins := 1 }
    let s (stop : Nat) : State := { onPort (.scrub 5) (withFrame 0 f live) with params := { live.params with stopOnUncorrectable := stop } }
    let step (stop : Nat) : State :=
      { s stop with store := { (s stop).store with scrubStep := some ⟨5, 14, 0, 0, false, false, false⟩, patrol := .running } }
    let ends (u : State) : PatrolState := (after (.scrubPortionComplete .none) (onPort (.scrub 5) u)).store.patrol
    let found (stop : Nat) : State := after (.scrubPortionComplete ⟨0, 1⟩) (step stop)
    ends { found 1 with params := { live.params with stopOnUncorrectable := 0 } } = .stopped ∧
    ends { found 0 with params := { live.params with stopOnUncorrectable := 1 } } = .running := by decide +kernel

/-- The damage notice of a frame that is retired before the notice is taken does not reach a later frame of its number. -/
theorem test_notice_goes_with_its_frame :
    let s : State := { framed with store := { framed.store with
      notices := [0, 7], frames := [(0, { readyFrame with state := .damaged, extent := [] })] } }
    let t := after (.releaseFrame 0) s
    t.frame 0 = none ∧ t.store.notices = [7] := by decide +kernel

/-- A line that is lost in the exchange of a WITHDRAW for a sale never sent declines the tender, and one lost with the sale on TXD asks the
terminal when it comes up again. -/
theorem test_lost_line_places_the_tender :
    let r : Tender := { exchanged .withdraw none with saleSent := false }
    let t := after (.breakDetected 0) (paying lockedOrder r)
    let u := after (.breakDetected 0) (talking .own)
    (t.tender 0 = none ∧ (t.order 0).map (·.state) = some .open) ∧
    (u.exchangeQueue 0 = [0] ∧ (u.tender 0).bind (·.pendingPurpose) = some .sale) ∧
    (((after (.breakEnd 0) u).line 0).txQueue.map (·.kind)) = [.enquire] := by decide +kernel

end Sys2Proof.Tests
end

section
/-! PROOF. SEAL FRAME and the write of its held bytes (R11): what storing a frame's record does, how a request that has been worked is
answered, and from these the statement FramesAreSealed. -/

namespace Sys2Proof.Machine

/-! ### What storing a frame's record does -/

@[simp] theorem State.frame_setFrame_self (n : Nat) (f : Frame) (s : State) : (s.setFrame n f).frame n = some f := by
  rw [State.frame, State.setFrame_store]
  exact find_put_self n f s.store.frames

theorem State.frame_setFrame_other {n m : Nat} (h : m ≠ n) (f : Frame) (s : State) : (s.setFrame n f).frame m = s.frame m := by
  rw [State.frame, State.setFrame_store]
  exact find_put_other h f s.store.frames

/-- A reported field that changes sets the frame's change flag (R6). -/
theorem State.frameFlag_mem_setFrame {n : Nat} {f : Frame} {s : State} (h : (s.frame n).map Frame.view ≠ some f.view) :
    frameFlag n ∈ (s.setFrame n f).link.flags := by
  rw [State.setFrame, decide_eq_true h]
  exact insertAsc_mem_self (frameFlag n) s.link.flags

theorem OnlyStore.setFrame (n : Nat) (f : Frame) (s : State) : OnlyStore s (s.setFrame n f) := by
  unfold OnlyStore State.setFrame State.setFlagIf
  split <;> rfl

/-! ### The parts a request leaves alone -/

theorem OnlyStore.trans {r s t : State} (hs : OnlyStore r s) (ht : OnlyStore s t) : OnlyStore r t :=
  calc t = { s with link := t.link, store := t.store } := ht
    _ = { r with link := t.link, store := t.store } := by rw [hs]

theorem OnlyStore.respond (x : Status) (p : List Byte) (s : State) : OnlyStore s (s.respond x p) := rfl

theorem OnlyStore.endAccess (s : State) : OnlyStore s s.endAccess := rfl

theorem OnlyStore.writeFrame (f : Frame) (x : Nat) (l : List Byte) (s : State) : OnlyStore s (s.writeFrame f x l) := rfl

theorem OnlyStore.atWork (i : Instr) (s : State) : OnlyStore s (s.atWork i) := by
  unfold OnlyStore State.atWork State.beginFrame State.restartEffect
  split
  · rfl
  · split <;> rfl

theorem Steady.quiet {s t : State} (h : Steady s t) : Quiet s t := ⟨h.traffic, h.flags, h.conditions⟩

theorem Quiet.setFrame (n : Nat) (f : Frame) (s : State) : Quiet s (s.setFrame n f) :=
  (StoreCalm.setFrame (.refl s)).toSteady.quiet

/-- A request whose work has left the link's traffic alone, and is then answered, is finished. -/
theorem Finishes.respond {i : Instr} {s t : State} (h : Quiet (s.atWork i) t) (x : Status) (p : List Byte) :
    Finishes i x p s (t.respond x p) where
  answered := answered_respond t x p
  wires := by
    rw [State.respond_link, h.traffic]
    exact ⟨State.atWork_selected i s, rfl⟩
  flags k hk := h.flags k (by rwa [State.atWork_flags])
  conditions c hc := h.conditions c (by rwa [State.hasCondition, State.atWork_conditions])

/-! ### A host frame becomes READY -/

/-- The record of a host frame that has been sealed (R11). -/
def Frame.sealed (f : Frame) : Frame := { f with state := .ready, heldBytes := [] }

theorem Frame.sealed_of_no_held {f : Frame} (h : f.heldBytes = []) : f.sealed = { f with state := .ready } := by
  rw [Frame.sealed, ← h]

/-- READ FRAME reports the state, so a frame that was not READY is reported otherwise once sealed. -/
theorem Frame.view_ne_sealed_view {f : Frame} (h : f.state ≠ .ready) : f.view ≠ f.sealed.view := fun e =>
  h (congrArg Frame.state e)

theorem State.completeHostFrame_eq (n : Nat) (f : Frame) (s : State) :
    s.completeHostFrame n f = (s.setFrame n f.sealed).respond .ok [] := rfl

theorem State.completeHostFrame_frame_self (n : Nat) (f : Frame) (s : State) : (s.completeHostFrame n f).frame n = some f.sealed :=
  State.frame_setFrame_self n f.sealed s

theorem State.completeHostFrame_frame_other {n m : Nat} (h : m ≠ n) (f : Frame) (s : State) :
    (s.completeHostFrame n f).frame m = s.frame m :=
  State.frame_setFrame_other h f.sealed s

theorem State.completeHostFrame_store (n : Nat) (f : Frame) (s : State) :
    (s.completeHostFrame n f).store = { s.store with frames := put n f.sealed s.store.frames } :=
  State.setFrame_store s n f.sealed

theorem OnlyStore.completeHostFrame (n : Nat) (f : Frame) (s : State) : OnlyStore s (s.completeHostFrame n f) :=
  (OnlyStore.setFrame n f.sealed s).trans (.respond .ok [] _)

theorem State.frameFlag_mem_completeHostFrame {n : Nat} {f : Frame} {s : State} (hf : s.frame n = some f) (h : f.state ≠ .ready) :
    frameFlag n ∈ (s.completeHostFrame n f).link.flags :=
  State.frameFlag_mem_setFrame (f := f.sealed) fun e => Frame.view_ne_sealed_view h (Option.some.inj (by rwa [hf] at e))

/-! ### SEAL FRAME, case by case of R11's table -/

section
variable {frame : Word16} {f : Frame} {s : State}

theorem State.sealFrame_absent (h : s.frame frame.toNat = none) : s.sealFrame frame = s.respond .noSuchRecord [] := by
  rw [State.sealFrame, h]; rfl

theorem State.sealFrame_wrongState (hf : s.frame frame.toNat = some f)
    (h : f.origin ≠ .host ∨ f.state ≠ .open ∨ f.fill < f.byteLength) : s.sealFrame frame = s.respond .wrongState [] := by
  unfold State.sealFrame
  rw [hf]
  dsimp only
  by_cases hs : f.origin ≠ .host ∨ f.state ≠ .open
  · rw [if_pos hs]; rfl
  · have hfill : f.fill < f.byteLength := by tauto
    rw [if_neg hs, if_pos hfill]; rfl

/-- A full host frame is sealed at once, or its held bytes ask for their write. -/
theorem State.sealFrame_full (hf : s.frame frame.toNat = some f) (ho : f.origin = .host) (hs : f.state = .open)
    (hfull : f.byteLength ≤ f.fill) :
    s.sealFrame frame =
      if f.heldBytes = [] then s.completeHostFrame frame.toNat f else s.askPort (.hostSeal frame.toNat) := by
  have hhost : ¬ (f.origin ≠ .host ∨ f.state ≠ .open) := by simp [ho, hs]
  unfold State.sealFrame
  rw [hf]
  dsimp only
  rw [if_neg hhost, if_neg hfull.not_gt]

theorem exec_sealFrame_of_reaches (h : Reaches (.sealFrame frame) s) :
    exec (.sealFrame frame) s = .next ((s.atWork (.sealFrame frame)).sealFrame frame).grantAll :=
  congrArg (fun t : State => Host.Outcome.next t.grantAll) (request_of_reaches h (State.sealFrame frame))

/-- What SEAL FRAME does to a full host frame without held bytes, at the block's work. -/
theorem exec_sealFrame_completes (h : Reaches (.sealFrame frame) s) (hf : s.frame frame.toNat = some f) (ho : f.origin = .host)
    (hs : f.state = .open) (hfull : f.byteLength ≤ f.fill) (hheld : f.heldBytes = []) :
    exec (.sealFrame frame) s = .next ((s.atWork (.sealFrame frame)).completeHostFrame frame.toNat f).grantAll := by
  have hw : (s.atWork (.sealFrame frame)).frame frame.toNat = some f := by rwa [State.atWork_frame]
  rw [exec_sealFrame_of_reaches h, State.sealFrame_full hw ho hs hfull, if_pos hheld]

end

/-! ### The write of the held bytes -/

/-- The write of the held bytes completes: the access ends, the group is in the store, and the frame becomes READY. -/
theorem exec_sealWriteComplete {n : Nat} {f : Frame} {s : State} (hb : s.store.port.busy = some (.hostSeal n))
    (hf : s.frame n = some f) :
    exec .sealWriteComplete s =
      .next ((s.endAccess.writeFrame f f.heldFrom f.sealGroup).completeHostFrame n f).grantAll := by
  have hw : s.endAccess.frame n = some f := hf
  show execSealWriteComplete s = _
  rw [execSealWriteComplete, hb]
  dsimp only
  rw [State.sealWriteComplete, hw]

/-! ### The statement -/

/-- Settles O26: SEAL FRAME by the rows of R11's table, and the write of its held bytes by what a sealed record is. -/
theorem framesAreSealed : Obligations.FramesAreSealed := by
  unfold Obligations.FramesAreSealed
  refine ⟨fun frame s h => ⟨fun hn => ?absent, fun f hf => ⟨fun hbad => ?wrongState, fun ho hs hfull hheld => ?asks,
    fun ho hs hfull hheld => ?completes⟩⟩, fun n f s hb hf => ?write⟩
  case absent =>
    rw [exec_sealFrame_of_reaches h, State.sealFrame_absent (by rwa [State.atWork_frame])]
  case wrongState =>
    rw [exec_sealFrame_of_reaches h, State.sealFrame_wrongState (by rwa [State.atWork_frame]) hbad]
  case asks =>
    rw [exec_sealFrame_of_reaches h, State.sealFrame_full (by rwa [State.atWork_frame]) ho hs hfull, if_neg hheld]
  case completes =>
    have hw : (s.atWork (.sealFrame frame)).frame frame.toNat = some f := by rwa [State.atWork_frame]
    refine ⟨(s.atWork (.sealFrame frame)).completeHostFrame frame.toNat f, ?_, ?_, ?_, ?_, ?_, fun m hm => ?_, ?_⟩
    · exact exec_sealFrame_completes h hf ho hs hfull hheld
    · exact (OnlyStore.atWork _ s).trans (.completeHostFrame ..)
    · exact .respond (.setFrame ..) .ok []
    · exact State.frameFlag_mem_completeHostFrame hw (by simp [hs])
    · rw [State.completeHostFrame_frame_self, Frame.sealed_of_no_held hheld]
    · rw [State.completeHostFrame_frame_other hm, State.atWork_frame]
    · rw [State.completeHostFrame_store, State.atWork_store]
  case write =>
    refine ⟨(s.endAccess.writeFrame f f.heldFrom f.sealGroup).completeHostFrame n f, ?_, ?_, ?_, ?_, fun m hm => ?_, ?_, ?_⟩
    · exact exec_sealWriteComplete hb hf
    · exact ((OnlyStore.endAccess s).trans (.writeFrame ..)).trans (.completeHostFrame ..)
    · exact answered_respond ..
    · exact State.completeHostFrame_frame_self ..
    · exact State.completeHostFrame_frame_other hm ..
    · rw [State.completeHostFrame_store]; rfl
    · rw [State.completeHostFrame_store]; rfl

end Sys2Proof.Machine
end

section
/-! PROOF. OPEN ORDER (R53, R56): what storing an order's record does, what a request of the Order Book leaves alone, the receipt code as
the first of the codes 7919 apart that no present order holds, the rows of the request's table, and from these the statement
OpenOrderCreatesAnEmptyOrder. -/

namespace Sys2Proof.Machine

/-! ### What storing an order's record does -/

@[simp] theorem State.order_setOrder_self (n : Nat) (o : Order) (s : State) : (s.setOrder n o).order n = some o := by
  rw [State.order, State.setOrder_book]
  exact find_put_self n o s.book.orders

theorem State.order_setOrder_other {n m : Nat} (h : m ≠ n) (o : Order) (s : State) : (s.setOrder n o).order m = s.order m := by
  rw [State.order, State.setOrder_book]
  exact find_put_other h o s.book.orders

/-- A record that changes, or is created, sets the order's change flag (R50). -/
theorem State.orderFlag_mem_setOrder {n : Nat} {o : Order} {s : State} (h : s.order n ≠ some o) :
    orderFlag n ∈ (s.setOrder n o).link.flags := by
  rw [State.setOrder, decide_eq_true h]
  exact insertAsc_mem_self (orderFlag n) s.link.flags

theorem Quiet.setOrder (n : Nat) (o : Order) (s : State) : Quiet s (s.setOrder n o) :=
  (MoneyCalm.setOrder (.refl s)).toSteady.quiet

@[simp] theorem State.frame_setOrder (n m : Nat) (o : Order) (s : State) : (s.setOrder n o).frame m = s.frame m := by
  rw [State.frame, State.setOrder_store, State.frame]

@[simp] theorem State.order_setFrame (n m : Nat) (f : Frame) (s : State) : (s.setFrame n f).order m = s.order m := by
  rw [State.order, State.setFrame_book, State.order]

/-! ### The parts a request of the Order Book leaves alone -/

/-- Everything but the Order Link and the Order Book is as it was. -/
def OnlyBook (s t : State) : Prop := t = { s with link := t.link, book := t.book }

theorem OnlyBook.trans {r s t : State} (hs : OnlyBook r s) (ht : OnlyBook s t) : OnlyBook r t :=
  calc t = { s with link := t.link, book := t.book } := ht
    _ = { r with link := t.link, book := t.book } := by rw [hs]

theorem OnlyBook.atWork (i : Instr) (s : State) : OnlyBook s (s.atWork i) := by
  unfold OnlyBook State.atWork State.beginFrame State.restartEffect
  split
  · rfl
  · split <;> rfl

theorem OnlyBook.setOrder (n : Nat) (o : Order) (s : State) : OnlyBook s (s.setOrder n o) := by
  unfold OnlyBook State.setOrder State.setFlagIf
  split <;> rfl

theorem OnlyBook.setFlag (k : Nat) (s : State) : OnlyBook s (s.setFlag k) := rfl

theorem OnlyBook.respond (x : Status) (p : List Byte) (s : State) : OnlyBook s (s.respond x p) := rfl

/-- A change of the Order Book and then one of the Image Store. -/
theorem OnlyBook.then_store {r s t : State} (hs : OnlyBook r s) (ht : OnlyStore s t) :
    t = { r with link := t.link, book := t.book, store := t.store } := by
  have hst : t = { s with link := t.link, store := t.store } := ht
  have hb := congrArg State.book hst
  calc t = { s with link := t.link, store := t.store } := hst
    _ = { r with link := t.link, book := s.book, store := t.store } := by rw [hs]
    _ = { r with link := t.link, book := t.book, store := t.store } := by rw [hb]

/-! ### Arguments in range and out of range -/

theorem toFin_of_eq {n k : Nat} {x : Fin n} (h : k = x.val) : toFin n k = some x := by
  subst h
  exact dif_pos x.isLt

theorem toFin_eq_none {n k : Nat} (h : n ≤ k) : toFin n k = none := dif_neg h.not_gt

/-- A byte above one that is named is another byte. -/
theorem ne_of_toNat_lt {b c : Byte} (h : c.toNat < b.toNat) : b ≠ c := fun e => by simp [e] at h

theorem toPriority_eq_none {b : Byte} (h : 1 < b.toNat) : toPriority b = none := by
  have h0 : b ≠ 0 := ne_of_toNat_lt (Nat.zero_lt_of_lt h)
  have h1 : b ≠ 1 := ne_of_toNat_lt h
  rw [toPriority, if_neg h0, if_neg h1]

theorem toPriority_eq_some {b : Byte} (h : b.toNat ≤ 1) : toPriority b = some (if b = 0 then .standard else .express) := by
  unfold toPriority
  by_cases h0 : b = 0
  · rw [if_pos h0, if_pos h0]
  · have h1 : b = 1 := by bv_omega
    rw [if_neg h0, if_neg h0, if_pos h1]

/-! ### The lowest free number of a table -/

theorem lowestFree_eq_none {α : Type} {l : List (Nat × α)} {fuel k : Nat} (h : ∀ j, k ≤ j → j < k + fuel → find j l ≠ none) :
    lowestFree l fuel k = none := by
  induction fuel generalizing k with
  | zero => rfl
  | succ fuel ih =>
    have hk : ¬ (find k l).isNone = true := by simpa using h k (by omega) (by omega)
    rw [lowestFree, if_neg hk]
    exact ih fun j hj hj' => h j (by omega) (by omega)

theorem lowestFree_eq_some {α : Type} {l : List (Nat × α)} {fuel k n : Nat} (hk : k ≤ n) (hn : n < k + fuel) (hfree : find n l = none)
    (hlow : ∀ j, k ≤ j → j < n → find j l ≠ none) : lowestFree l fuel k = some n := by
  induction fuel generalizing k with
  | zero => omega
  | succ fuel ih =>
    rcases Nat.eq_or_lt_of_le hk with rfl | hlt
    · rw [lowestFree, hfree]; rfl
    · have hpresent : ¬ (find k l).isNone = true := by simpa using hlow k (by omega) hlt
      rw [lowestFree, if_neg hpresent]
      exact ih hlt (by omega) fun j hj => hlow j (by omega)

/-! ### Receipt codes (R53) -/

/-- The code k steps after a first one. -/
def codeAfter (first k : Nat) : Nat := if k = 0 then first else (first + 7919 * k) % 1000000

/-- The first code that is tried for the next order. -/
def State.firstCode (s : State) : Nat :=
  match s.book.lastCode with
  | none => s.params.codeSeed
  | some c => (c + 7919) % 1000000

theorem State.nextCode_eq (s : State) : s.nextCode = s.stepCode s.book.orders.length s.firstCode := rfl

theorem State.codeHeld_iff {c : Nat} {s : State} : s.codeHeld c = true ↔ ∃ e ∈ s.book.orders, e.2.receiptCode = c := by
  simp [State.codeHeld]

/-- One step on from a code leads to the codes after it. -/
theorem codeAfter_step (first k : Nat) :
    codeAfter ((first + Config.receiptStep) % Config.receiptCodes) k = codeAfter first (k + 1) := by
  rw [show Config.receiptStep = 7919 from rfl, show Config.receiptCodes = 1000000 from rfl, codeAfter, codeAfter,
    if_neg (Nat.succ_ne_zero k)]
  split
  · next h => rw [h]
  · omega

/-- Fewer than 1,000,000 steps do not come back to a code, since 7919 and 1,000,000 have no common factor. -/
theorem codeAfter_injective {first j k : Nat} (hf : first < 1000000) (hj : j < 1000000) (hk : k < 1000000)
    (h : codeAfter first j = codeAfter first k) : j = k := by
  have mod (i : Nat) : codeAfter first i = (first + 7919 * i) % 1000000 := by
    unfold codeAfter
    split
    · next h => rw [h, Nat.mul_zero, Nat.add_zero, Nat.mod_eq_of_lt hf]
    · rfl
  rw [mod, mod] at h
  have hmod : 7919 * j ≡ 7919 * k [MOD 1000000] := Nat.ModEq.add_left_cancel' first h
  have hcancel : j ≡ k [MOD 1000000] := Nat.ModEq.cancel_left_of_coprime (by norm_num) hmod
  exact hcancel.eq_of_lt_of_lt hj hk

/-- The search passes held codes only, and it ends at a code that is not held unless its steps run out. -/
theorem State.stepCode_spec (fuel first : Nat) (s : State) :
    ∃ k, k ≤ fuel ∧ s.stepCode fuel first = codeAfter first k ∧ (∀ j, j < k → s.codeHeld (codeAfter first j) = true) ∧
      (k < fuel → s.codeHeld (codeAfter first k) = false) := by
  induction fuel generalizing first with
  | zero => exact ⟨0, Nat.le_refl 0, rfl, fun j hj => absurd hj (Nat.not_lt_zero j), fun h => absurd h (Nat.lt_irrefl 0)⟩
  | succ fuel ih =>
    cases hheld : s.codeHeld first with
    | false => exact ⟨0, Nat.zero_le _, by rw [State.stepCode, hheld]; rfl, fun j hj => absurd hj (Nat.not_lt_zero j), fun _ => hheld⟩
    | true =>
      obtain ⟨k, hk, hcode, hpassed, hfree⟩ := ih ((first + Config.receiptStep) % Config.receiptCodes)
      simp only [codeAfter_step] at hcode hpassed hfree
      refine ⟨k + 1, Nat.succ_le_succ hk, ?_, fun j hj => ?_, fun h => hfree (Nat.lt_of_succ_lt_succ h)⟩
      · rw [State.stepCode, if_pos hheld, hcode]
      · cases j with
        | zero => exact hheld
        | succ j => exact hpassed j (Nat.lt_of_succ_lt_succ hj)

/-- More codes than there are orders cannot all be held. -/
theorem State.exists_codeHeld_eq_false {first : Nat} {s : State} (hf : first < 1000000) (hl : s.book.orders.length < 1000000) :
    ∃ j, j ≤ s.book.orders.length ∧ s.codeHeld (codeAfter first j) = false := by
  by_contra hall
  have hheld : ∀ j, j < s.book.orders.length + 1 → s.codeHeld (codeAfter first j) = true := fun j hj =>
    Bool.of_not_eq_false fun hfree => hall ⟨j, Nat.le_of_lt_succ hj, hfree⟩
  have hnodup : ((List.range (s.book.orders.length + 1)).map (codeAfter first)).Nodup :=
    List.Nodup.map_on (fun j hj k hk => by
      rw [List.mem_range] at hj hk
      exact codeAfter_injective hf (by omega) (by omega)) List.nodup_range
  have hsub : (List.range (s.book.orders.length + 1)).map (codeAfter first) ⊆ s.book.orders.map fun e => e.2.receiptCode := by
    intro c hc
    obtain ⟨j, hj, rfl⟩ := List.mem_map.1 hc
    exact List.mem_map.2 (State.codeHeld_iff.1 (hheld j (List.mem_range.1 hj)))
  simpa using (hnodup.subperm hsub).length_le

/-- The next receipt code is a code after the first one, and the codes between are held. -/
theorem State.nextCode_spec (s : State) : ∃ k, k ≤ s.book.orders.length ∧ s.nextCode = codeAfter s.firstCode k ∧
    (∀ j, j < k → s.codeHeld (codeAfter s.firstCode j) = true) ∧
    (s.firstCode < 1000000 → s.book.orders.length < 1000000 → s.codeHeld s.nextCode = false) := by
  obtain ⟨k, hk, hcode, hpassed, hfree⟩ := s.stepCode_spec s.book.orders.length s.firstCode
  rw [← State.nextCode_eq] at hcode
  refine ⟨k, hk, hcode, hpassed, fun hf hl => ?_⟩
  rw [hcode]
  obtain ⟨j, hj, hfreeAt⟩ := State.exists_codeHeld_eq_false hf hl
  have hkj : k ≤ j := Nat.le_of_not_lt fun h => by simp [hpassed j h] at hfreeAt
  rcases Nat.eq_or_lt_of_le hkj with rfl | hlt
  · exact hfreeAt
  · exact hfree (Nat.lt_of_lt_of_le hlt hj)

theorem State.stepCode_congr {s t : State} (h : t.book = s.book) (fuel c : Nat) : t.stepCode fuel c = s.stepCode fuel c := by
  induction fuel generalizing c with
  | zero => rfl
  | succ fuel ih => rw [State.stepCode, State.stepCode, State.codeHeld, State.codeHeld, h, ih]

@[simp] theorem State.atWork_nextCode (i : Instr) (s : State) : (s.atWork i).nextCode = s.nextCode := by
  rw [State.nextCode_eq, State.nextCode_eq, State.stepCode_congr (State.atWork_book i s), State.firstCode, State.firstCode,
    State.atWork_book, State.atWork_params]

@[simp] theorem State.atWork_freshDeadline (i : Instr) (s : State) : (s.atWork i).freshDeadline = s.freshDeadline := by
  rw [State.freshDeadline, State.atWork_params, State.freshDeadline]

/-! ### OPEN ORDER, case by case of R56 -/

/-- The next receipt code becomes the last one issued (R53). -/
def State.issueCode (s : State) : State := { s with book := { s.book with lastCode := some s.nextCode } }

theorem OnlyBook.issueCode (s : State) : OnlyBook s s.issueCode := rfl

theorem State.order_issueCode (n : Nat) (s : State) : s.issueCode.order n = s.order n := rfl

theorem Quiet.issueCode_setOrder (n : Nat) (o : Order) (s : State) : Quiet s (s.issueCode.setOrder n o) :=
  (MoneyCalm.setOrder (MoneyCalm.withBook (.refl s) s.issueCode.book id)).toSteady.quiet

section
variable {station priority : Byte} {s : State}

theorem State.openOrder_badArgument (h : 3 < station.toNat ∨ 1 < priority.toNat) :
    s.openOrder station priority = s.respond .badArgument [] := by
  unfold State.openOrder
  rcases h with h | h
  · rw [toFin_eq_none h]; rfl
  · rw [toPriority_eq_none h]
    split
    · contradiction
    · rfl

theorem State.openOrder_full {st : Fin 4} (hst : station.toNat = st.val) (hp : priority.toNat ≤ 1)
    (hfull : ∀ n, n < 64 → s.order n ≠ none) : s.openOrder station priority = s.respond .tableFull [] := by
  have hnone : lowestFree s.book.orders Config.orderEntries 0 = none :=
    lowestFree_eq_none fun j _ hj => hfull j (by rwa [Nat.zero_add] at hj)
  rw [State.openOrder, toFin_of_eq hst, toPriority_eq_some hp, hnone]
  rfl

theorem State.openOrder_created {st : Fin 4} {n : Nat} (hst : station.toNat = st.val) (hp : priority.toNat ≤ 1) (hn : n < 64)
    (hfree : s.order n = none) (hlow : ∀ j, j < n → s.order j ≠ none) :
    s.openOrder station priority =
      (s.issueCode.setOrder n (newOrder s.nextCode st (if priority = 0 then .standard else .express)
        s.params.reprintAllowance s.freshDeadline)).respond .ok (byte1 n ++ byte4 s.nextCode) := by
  have hsome : lowestFree s.book.orders Config.orderEntries 0 = some n :=
    lowestFree_eq_some (Nat.zero_le n) (by rwa [Nat.zero_add]) hfree fun j _ => hlow j
  rw [State.openOrder, toFin_of_eq hst, toPriority_eq_some hp]
  dsimp only
  rw [hsome]
  rfl

theorem exec_openOrder_of_reaches (h : Reaches (.openOrder station priority) s) :
    exec (.openOrder station priority) s = .next ((s.atWork (.openOrder station priority)).openOrder station priority) :=
  congrArg Host.Outcome.next (request_of_reaches h (State.openOrder station priority))

end

/-- Settles O35: OPEN ORDER by the cases of R56, and its code by the search of R53. -/
theorem openOrderCreatesAnEmptyOrder : Obligations.OpenOrderCreatesAnEmptyOrder := by
  unfold Obligations.OpenOrderCreatesAnEmptyOrder
  intro station priority s h
  refine ⟨fun hbad => ?badArgument, fun st hst hp => ⟨fun hfull => ?full, fun first hfirst code hcode => ?code,
    fun n hn hfree hlow => ?created⟩⟩
  case badArgument =>
    rw [OnlyAnswers, exec_openOrder_of_reaches h, State.openOrder_badArgument hbad]
  case full =>
    rw [OnlyAnswers, exec_openOrder_of_reaches h, State.openOrder_full hst hp (by simpa using hfull)]
  case code =>
    obtain rfl : first = s.firstCode := hfirst
    obtain rfl : code = codeAfter s.firstCode := funext hcode
    obtain ⟨k, hk, hnext, hpassed, hfree⟩ := s.nextCode_spec
    refine ⟨k, hk, hnext, fun j hj => State.codeHeld_iff.1 (hpassed j hj), fun hf hl e he heq => ?_⟩
    have hheld : s.codeHeld s.nextCode = true := State.codeHeld_iff.2 ⟨e, he, heq⟩
    exact absurd (hfree hf hl) (by rw [hheld]; decide)
  case created =>
    have hw : (s.atWork (.openOrder station priority)).order n = none := by rwa [State.atWork_order]
    have hx := exec_openOrder_of_reaches h
    rw [State.openOrder_created hst hp hn hw (by simpa using hlow)] at hx
    simp only [State.atWork_nextCode, State.atWork_params, State.atWork_freshDeadline] at hx
    refine ⟨_, hx, ?_, ?_, ?_, ?_, fun m hm => ?_, ?_⟩
    · exact (((OnlyBook.atWork _ s).trans (.issueCode _)).trans (.setOrder ..)).trans (.respond ..)
    · exact .respond (.issueCode_setOrder ..) .ok _
    · exact State.orderFlag_mem_setOrder (by simp [State.order_issueCode, hfree])
    · simp [State.issueCode]
    · exact (State.order_setOrder_other hm ..).trans (State.atWork_order _ s m)
    · exact State.order_setOrder_self ..

end Sys2Proof.Machine
end

section
/-! PROOF. ADD LINE (R57): a request that names an order, what storing an order with its idle deadline restarted and citing a frame do,
the rows of the request's table, and from these the statement AddLineCitesTheFrame. -/

namespace Sys2Proof.Machine

/-! ### The line arguments in range and out of range -/

theorem toFit_eq_none {b : Byte} (h : 2 < b.toNat) : toFit b = none := by
  have h0 : b ≠ 0 := ne_of_toNat_lt (Nat.zero_lt_of_lt h)
  have h1 : b ≠ 1 := ne_of_toNat_lt (Nat.lt_of_succ_lt h)
  have h2 : b ≠ 2 := ne_of_toNat_lt h
  rw [toFit, if_neg h0, if_neg h1, if_neg h2]

section
variable {frame : Word16} {product quantity fit : Byte}

theorem toLineArgs_eq_some {p : Fin 16} {m : Fit} (hf : frame.toNat ≤ 1023) (hp : product.toNat = p.val)
    (hq : 1 ≤ quantity.toNat) (hq' : quantity.toNat ≤ 99) (hm : toFit fit = some m) :
    toLineArgs frame product quantity fit = some ⟨frame.toNat, p, quantity.toNat, m⟩ := by
  have hrange : frame.toNat < Config.frameEntries ∧ 1 ≤ quantity.toNat ∧ quantity.toNat ≤ 99 := ⟨Nat.lt_succ_of_le hf, hq, hq'⟩
  rw [toLineArgs, toFin_of_eq hp, hm]
  exact if_pos hrange

theorem toLineArgs_eq_none (h : 1023 < frame.toNat ∨ 15 < product.toNat ∨ quantity.toNat = 0 ∨ 99 < quantity.toNat ∨ 2 < fit.toNat) :
    toLineArgs frame product quantity fit = none := by
  unfold toLineArgs
  by_cases hp : 15 < product.toNat
  · rw [toFin_eq_none hp]
  · by_cases hm : 2 < fit.toNat
    · rw [toFit_eq_none hm]
      split
      · contradiction
      · rfl
    · have hrange : ¬ (frame.toNat < Config.frameEntries ∧ 1 ≤ quantity.toNat ∧ quantity.toNat ≤ 99) := by
        rw [show Config.frameEntries = 1024 from rfl]
        omega
      split
      · exact if_neg hrange
      · rfl

end

/-! ### A request that names an order -/

section
variable {order : Byte} {work : Nat → Order → State → State} {s : State}

theorem State.withOrder_badArgument (h : 63 < order.toNat) : s.withOrder order work = s.respond .badArgument [] := by
  have hbad : Config.orderEntries ≤ order.toNat := h
  unfold State.withOrder
  dsimp only
  rw [if_pos hbad]
  rfl

theorem State.withOrder_absent (h : order.toNat ≤ 63) (ho : s.order order.toNat = none) :
    s.withOrder order work = s.respond .noSuchRecord [] := by
  have hin : ¬ Config.orderEntries ≤ order.toNat := Nat.not_le_of_lt (Nat.lt_succ_of_le h)
  unfold State.withOrder
  dsimp only
  rw [if_neg hin, ho]
  rfl

theorem State.withOrder_present {o : Order} (h : order.toNat ≤ 63) (ho : s.order order.toNat = some o) :
    s.withOrder order work = work order.toNat o s := by
  have hin : ¬ Config.orderEntries ≤ order.toNat := Nat.not_le_of_lt (Nat.lt_succ_of_le h)
  unfold State.withOrder
  dsimp only
  rw [if_neg hin, ho]

end

/-! ### An OPEN order is stored with its idle deadline restarted (R60) -/

section
variable {n m : Nat} {o : Order} {s : State}

theorem OnlyBook.storeRestarted : OnlyBook s (s.storeRestarted n o) :=
  (OnlyBook.setOrder n _ s).trans (.setFlag ..)

theorem Steady.storeRestarted : Steady s (s.storeRestarted n o) :=
  (MoneyCalm.setOrder (.refl s)).setFlag.toSteady

theorem State.orderFlag_mem_storeRestarted : orderFlag n ∈ (s.storeRestarted n o).link.flags :=
  insertAsc_mem_self (orderFlag n) _

theorem State.order_storeRestarted_self :
    (s.storeRestarted n o).order n = some { o with idleDeadline := s.freshDeadline } :=
  State.order_setOrder_self n _ s

theorem State.order_storeRestarted_other (h : m ≠ n) :
    (s.storeRestarted n o).order m = s.order m :=
  State.order_setOrder_other h _ s

@[simp] theorem State.frame_storeRestarted : (s.storeRestarted n o).frame m = s.frame m :=
  State.frame_setOrder n m _ s

@[simp] theorem State.storeRestarted_store : (s.storeRestarted n o).store = s.store :=
  State.setOrder_store s n _

@[simp] theorem State.storeRestarted_book : (s.storeRestarted n o).book =
    { s.book with orders := put n { o with idleDeadline := s.freshDeadline } s.book.orders } :=
  State.setOrder_book s n _

end

/-! ### A line cites its frame (R15) -/

/-- The record of a frame that one more line cites. -/
def Frame.cited (f : Frame) : Frame := { f with references := f.references + 1 }

theorem State.raiseReference_eq {n : Nat} {f : Frame} {s : State} (h : s.frame n = some f) :
    s.raiseReference n = s.setFrame n f.cited := by
  rw [State.raiseReference, State.modFrame, h]
  rfl

/-- READ FRAME reports the reference count, so a frame is reported otherwise once one more line cites it. -/
theorem Frame.view_ne_cited_view (f : Frame) : f.view ≠ f.cited.view := fun e =>
  Nat.ne_of_lt (Nat.lt_succ_self f.references) (congrArg Frame.references e)

theorem State.frameFlag_mem_setFrame_cited {n : Nat} {f : Frame} {s : State} (h : s.frame n = some f) :
    frameFlag n ∈ (s.setFrame n f.cited).link.flags :=
  State.frameFlag_mem_setFrame fun e => f.view_ne_cited_view (Option.some.inj (by rwa [h] at e))

theorem State.citable_eq_false {n : Nat} {s : State}
    (h : ∀ f, s.frame n = some f → f.state ≠ .ready ∨ f.releasePending = true) : s.citable n = false := by
  unfold State.citable
  split
  · next f hf => rcases h f hf with h | h <;> simp [h]
  · rfl

theorem State.citable_eq_true {n : Nat} {f : Frame} {s : State} (hf : s.frame n = some f) (hr : f.state = .ready)
    (hp : f.releasePending = false) : s.citable n = true := by
  rw [State.citable, hf]
  simp [hr, hp]

@[simp] theorem State.atWork_citable (i : Instr) (n : Nat) (s : State) : (s.atWork i).citable n = s.citable n := by
  rw [State.citable, State.atWork_frame, State.citable]

@[simp] theorem State.atWork_price (i : Instr) (p : Fin 16) (s : State) : (s.atWork i).price p = s.price p := by
  rw [State.price, State.atWork_book, State.price]

/-! ### ADD LINE, row by row of R57's table -/

/-- The value due of an order once a line of these arguments is added. -/
def Order.dueWith (price : Nat) (a : LineArgs) (o : Order) : Nat := o.valueDue + a.quantity * price

/-- An order with a line of these arguments added under a number (R57). -/
def Order.addLine (k price : Nat) (a : LineArgs) (o : Order) : Order :=
  { o with
    lines := o.lines ++ [newLine k price a]
    nextLine := if k < 255 then some (k + 1) else none
    valueDue := o.dueWith price a }

section
variable {frame : Word16} {product quantity fit : Byte} {n k : Nat} {o : Order} {a : LineArgs} {s : State}

theorem State.addLine_wrongState (h : o.state ≠ .open) : s.addLine frame product quantity fit n o = s.respond .wrongState [] := by
  rw [State.addLine, if_pos h]
  rfl

theorem State.addLine_badArgument (ho : o.state = .open) (ha : toLineArgs frame product quantity fit = none) :
    s.addLine frame product quantity fit n o = s.respond .badArgument [] := by
  rw [State.addLine, if_neg (not_not_intro ho), ha]
  rfl

theorem State.addLine_noNumber (ho : o.state = .open) (ha : toLineArgs frame product quantity fit = some a) (hk : o.nextLine = none) :
    s.addLine frame product quantity fit n o = s.respond .limit [] := by
  rw [State.addLine, if_neg (not_not_intro ho), ha]
  dsimp only
  rw [hk]
  rfl

theorem State.addLine_tooManyLines (ho : o.state = .open) (ha : toLineArgs frame product quantity fit = some a)
    (hl : 32 ≤ o.lines.length) : s.addLine frame product quantity fit n o = s.respond .limit [] := by
  have hfull : Config.linesPerOrder ≤ o.lines.length := hl
  cases hk : o.nextLine with
  | none => exact State.addLine_noNumber ho ha hk
  | some k =>
    rw [State.addLine, if_neg (not_not_intro ho), ha]
    dsimp only
    rw [hk]
    exact if_pos hfull

/-- The checks that are left once the order takes one more line: the frame, the product and the value due. -/
theorem State.addLine_of_room (ho : o.state = .open) (ha : toLineArgs frame product quantity fit = some a)
    (hk : o.nextLine = some k) (hl : o.lines.length < 32) :
    s.addLine frame product quantity fit n o =
      if s.citable a.frame = false then s.respond .frameNotReady []
      else if (s.price a.product).enabled = false then s.respond .productDisabled []
      else if 999999 < o.dueWith (s.price a.product).price a then s.respond .limit []
      else ((s.storeRestarted n (o.addLine k (s.price a.product).price a)).raiseReference a.frame).respond .ok
        (byte1 k ++ byte4 (o.dueWith (s.price a.product).price a)) := by
  have hroom : ¬ Config.linesPerOrder ≤ o.lines.length := hl.not_ge
  rw [State.addLine, if_neg (not_not_intro ho), ha]
  dsimp only
  rw [hk]
  exact if_neg hroom

theorem State.addLine_frameNotReady (ho : o.state = .open) (ha : toLineArgs frame product quantity fit = some a)
    (hk : o.nextLine = some k) (hl : o.lines.length < 32) (hc : s.citable a.frame = false) :
    s.addLine frame product quantity fit n o = s.respond .frameNotReady [] := by
  rw [State.addLine_of_room ho ha hk hl, if_pos hc]

theorem State.addLine_productDisabled (ho : o.state = .open) (ha : toLineArgs frame product quantity fit = some a)
    (hk : o.nextLine = some k) (hl : o.lines.length < 32) (hc : s.citable a.frame = true)
    (he : (s.price a.product).enabled = false) : s.addLine frame product quantity fit n o = s.respond .productDisabled [] := by
  rw [State.addLine_of_room ho ha hk hl, if_neg (ne_false_of_eq_true hc), if_pos he]

theorem State.addLine_overValue (ho : o.state = .open) (ha : toLineArgs frame product quantity fit = some a)
    (hk : o.nextLine = some k) (hl : o.lines.length < 32) (hc : s.citable a.frame = true)
    (he : (s.price a.product).enabled = true) (hv : 999999 < o.dueWith (s.price a.product).price a) :
    s.addLine frame product quantity fit n o = s.respond .limit [] := by
  rw [State.addLine_of_room ho ha hk hl, if_neg (ne_false_of_eq_true hc), if_neg (ne_false_of_eq_true he), if_pos hv]

theorem State.addLine_added (ho : o.state = .open) (ha : toLineArgs frame product quantity fit = some a)
    (hk : o.nextLine = some k) (hl : o.lines.length < 32) (hc : s.citable a.frame = true)
    (he : (s.price a.product).enabled = true) (hv : o.dueWith (s.price a.product).price a ≤ 999999) :
    s.addLine frame product quantity fit n o =
      ((s.storeRestarted n (o.addLine k (s.price a.product).price a)).raiseReference a.frame).respond .ok
        (byte1 k ++ byte4 (o.dueWith (s.price a.product).price a)) := by
  rw [State.addLine_of_room ho ha hk hl, if_neg (ne_false_of_eq_true hc), if_neg (ne_false_of_eq_true he), if_neg hv.not_gt]

end

section
variable {order : Byte} {frame : Word16} {product quantity fit : Byte} {o : Order} {s : State}

theorem exec_addLine_of_reaches (h : Reaches (.addLine order frame product quantity fit) s) :
    exec (.addLine order frame product quantity fit) s =
      .next ((s.atWork (.addLine order frame product quantity fit)).withOrder order (State.addLine frame product quantity fit)) :=
  congrArg Host.Outcome.next (request_of_reaches h (State.withOrder order (State.addLine frame product quantity fit)))

theorem exec_addLine_present (h : Reaches (.addLine order frame product quantity fit) s) (hn : order.toNat ≤ 63)
    (ho : s.order order.toNat = some o) :
    exec (.addLine order frame product quantity fit) s =
      .next ((s.atWork (.addLine order frame product quantity fit)).addLine frame product quantity fit order.toNat o) := by
  rw [exec_addLine_of_reaches h, State.withOrder_present hn (by rwa [State.atWork_order])]

end

/-! ### The state after a line has been added -/

/-- The order with its new line is stored and its frame cited (R57, R60, R15). -/
def State.lineAdded (n : Nat) (o : Order) (m : Nat) (f : Frame) (s : State) : State := (s.storeRestarted n o).setFrame m f.cited

section
variable {n m j : Nat} {o : Order} {f : Frame} {s : State}

theorem State.lineAdded_eq (hf : s.frame m = some f) : (s.storeRestarted n o).raiseReference m = s.lineAdded n o m f :=
  State.raiseReference_eq (by rwa [State.frame_storeRestarted])

theorem Quiet.lineAdded : Quiet s (s.lineAdded n o m f) :=
  (Steady.storeRestarted.trans (StoreCalm.setFrame (.refl _)).toSteady).quiet

theorem State.orderFlag_mem_lineAdded :
    orderFlag n ∈ (s.lineAdded n o m f).link.flags :=
  (Quiet.setFrame m f.cited _).flags _ State.orderFlag_mem_storeRestarted

theorem State.frameFlag_mem_lineAdded (hf : s.frame m = some f) : frameFlag m ∈ (s.lineAdded n o m f).link.flags :=
  State.frameFlag_mem_setFrame_cited (by rwa [State.frame_storeRestarted])

theorem State.order_lineAdded_self :
    (s.lineAdded n o m f).order n = some { o with idleDeadline := s.freshDeadline } := by
  rw [State.lineAdded, State.order_setFrame, State.order_storeRestarted_self]

theorem State.order_lineAdded_other (h : j ≠ n) : (s.lineAdded n o m f).order j = s.order j := by
  rw [State.lineAdded, State.order_setFrame, State.order_storeRestarted_other h]

theorem State.frame_lineAdded_self :
    (s.lineAdded n o m f).frame m = some f.cited :=
  State.frame_setFrame_self m f.cited _

theorem State.frame_lineAdded_other (h : j ≠ m) : (s.lineAdded n o m f).frame j = s.frame j := by
  rw [State.lineAdded, State.frame_setFrame_other h, State.frame_storeRestarted]

theorem State.lineAdded_book : (s.lineAdded n o m f).book =
    { s.book with orders := put n { o with idleDeadline := s.freshDeadline } s.book.orders } := by
  rw [State.lineAdded, State.setFrame_book, State.storeRestarted_book]

theorem State.lineAdded_store : (s.lineAdded n o m f).store =
    { s.store with frames := put m f.cited s.store.frames } := by
  rw [State.lineAdded, State.setFrame_store, State.storeRestarted_store]

end

/-- Settles O36: ADD LINE by the rows of R57's table, and by what the state after a line has been added is. -/
theorem addLineCitesTheFrame : Obligations.AddLineCitesTheFrame := by
  unfold Obligations.AddLineCitesTheFrame
  intro order frame product quantity fit s h
  refine ⟨fun hn => ?badOrder, fun hn ho => ?absent, fun o hn ho => ⟨fun hs => ?wrongState, fun hs hbad => ?badLine,
    fun p m hs hf hp hq hq' hm => ?inRange⟩⟩
  case badOrder =>
    rw [OnlyAnswers, exec_addLine_of_reaches h, State.withOrder_badArgument hn]
  case absent =>
    rw [OnlyAnswers, exec_addLine_of_reaches h, State.withOrder_absent hn (by rwa [State.atWork_order])]
  case wrongState =>
    rw [OnlyAnswers, exec_addLine_present h hn ho, State.addLine_wrongState hs]
  case badLine =>
    rw [OnlyAnswers, exec_addLine_present h hn ho, State.addLine_badArgument hs (toLineArgs_eq_none hbad)]
  case inRange =>
    have ha := toLineArgs_eq_some hf hp hq hq' hm
    have hx := exec_addLine_present h hn ho
    refine ⟨fun hfull => ?noRoom, fun k hk hl => ⟨fun hnot => ?frameNotReady, fun f hfr hr hrp => ?citable⟩⟩
    case noRoom =>
      rcases hfull with hk | hl
      · rw [OnlyAnswers, hx, State.addLine_noNumber hs ha hk]
      · rw [OnlyAnswers, hx, State.addLine_tooManyLines hs ha hl]
    case frameNotReady =>
      rw [OnlyAnswers, hx, State.addLine_frameNotReady hs ha hk hl (by rw [State.atWork_citable, State.citable_eq_false hnot])]
    case citable =>
      have hw : (s.atWork (.addLine order frame product quantity fit)).frame frame.toNat = some f := by rwa [State.atWork_frame]
      have hc := State.citable_eq_true hw hr hrp
      have hprice : (s.atWork (.addLine order frame product quantity fit)).price p = s.book.prices[p] := State.atWork_price _ p s
      refine ⟨fun hoff => ?disabled, fun hon hover => ?overValue, fun hon hdue => ?added⟩
      case disabled =>
        rw [OnlyAnswers, hx, State.addLine_productDisabled hs ha hk hl hc (by rwa [hprice])]
      case overValue =>
        rw [OnlyAnswers, hx, State.addLine_overValue hs ha hk hl hc (by rwa [hprice]) (by rwa [hprice])]
      case added =>
        rw [State.addLine_added hs ha hk hl hc (by rwa [hprice]) (by rwa [hprice]), hprice, State.lineAdded_eq hw] at hx
        refine ⟨_, hx, ?_, ?_, ?_, ?_, ?_, fun j hj => ?_, ?_, ?_, fun j hj => ?_, ?_⟩
        · exact ((OnlyBook.atWork _ s).trans .storeRestarted).then_store ((OnlyStore.setFrame ..).trans (.respond ..))
        · exact .respond .lineAdded .ok _
        · exact State.orderFlag_mem_lineAdded
        · exact State.frameFlag_mem_lineAdded hw
        · refine State.order_lineAdded_self.trans ?_
          rw [State.atWork_freshDeadline]
          rfl
        · exact (State.order_lineAdded_other hj).trans (State.atWork_order _ s j)
        · simp [State.lineAdded_book]
        · exact State.frame_lineAdded_self
        · exact (State.frame_lineAdded_other hj).trans (State.atWork_frame _ s j)
        · simp [State.lineAdded_store]

end Sys2Proof.Machine
end

section
/-! PROOF. IDENTIFY PART (R183) and RESTART (R185): what RESTART's effect does to the link, the two events at which it comes, and from
these the statement IdentifyPartAndRestartAnswer. -/

namespace Sys2Proof.Machine

/-! ### The changes that stay within the Order Link -/

theorem OnlyLink.trans {r s t : State} (hs : OnlyLink r s) (ht : OnlyLink s t) : OnlyLink r t :=
  calc t = { s with link := t.link } := ht
    _ = { r with link := t.link } := by rw [hs]

theorem OnlyLink.part {s t : State} (h : OnlyLink s t) : t.part = s.part := by rw [h]

theorem OnlyLink.withLink (s : State) (l : OrderLink) : OnlyLink s { s with link := l } := rfl

theorem OnlyLink.restartEffect (s : State) : OnlyLink s s.restartEffect := by
  unfold OnlyLink State.restartEffect
  split <;> rfl

theorem OnlyLink.beginFrame (s : State) : OnlyLink s s.beginFrame := (OnlyLink.withLink s _).trans (.restartEffect _)

theorem OnlyLink.shiftOut (s : State) : OnlyLink s s.shiftOut := by
  unfold OnlyLink State.shiftOut
  dsimp only
  split <;> rfl

theorem OnlyLink.atWork (i : Instr) (s : State) : OnlyLink s (s.atWork i) := by
  unfold State.atWork
  split
  · exact .withLink s _
  · exact ((OnlyLink.beginFrame s).trans (.withLink _ _)).trans (.withLink _ _)

/-! ### IDENTIFY PART -/

/-- The 16 bytes of the answer, spelt (R183). -/
theorem State.identity_eq (s : State) :
    s.identity = [0x48, 0x41, 0x57, 0x4C, 0x49, 0x4E, 0x20, 0x48, 0x4B, 0x33, 0x33, 0x30, 1] ++
      [if s.part.started then 1 else 0] ++ [0x02, 0x58] := rfl

theorem exec_identifyPart_of_reaches {s : State} (h : Reaches .identifyPart s) :
    exec .identifyPart s = .next ((s.atWork .identifyPart).respond .ok (s.atWork .identifyPart).identity) :=
  congrArg Host.Outcome.next (request_of_reaches h fun t => t.respond .ok t.identity)

/-! ### RESTART is answered -/

theorem exec_restart_of_reaches {s : State} (h : Reaches .restart s) : exec .restart s = .next (s.atWork .restart).restart :=
  congrArg Host.Outcome.next (request_of_reaches h State.restart)

theorem OnlyLink.restart (s : State) : OnlyLink s s.restart := rfl

theorem State.answered_restart (s : State) : Answered .ok [] s.restart := answered_respond s .ok []

/-- RESTART waits from its answer on, and until it takes effect no flag and no condition changes. -/
theorem State.restart_link (s : State) :
    s.restart.link.restartDue = true ∧ s.restart.link.conditions = s.link.conditions ∧ s.restart.link.flags = s.link.flags :=
  ⟨rfl, rfl, rfl⟩

/-! ### RESTART takes effect -/

/-- RESTART has taken effect between s and t and left the link in state x, without a response: every change flag is set, ATTN_N is driven,
the conditions are kept, and nothing outside the link has changed (R185). -/
def RestartedInto (x : LinkState) (s t : State) : Prop :=
  OnlyLink s t ∧ t.link.flags = allFlags ∧ t.link.restartDue = false ∧ t.link.conditions = s.link.conditions ∧ t.link.state = x ∧
    t.link.response = none ∧ t.attention = true

theorem allFlags_isEmpty : allFlags.isEmpty = false := by
  unfold allFlags
  exact List.isEmpty_eq_false_iff_exists_mem.2 ⟨0, List.mem_range.2 (by decide)⟩

/-- Every flag set drives ATTN_N while RESET_N is not asserted (R180). -/
theorem State.attention_of_allFlags {s : State} (live : s.part.inReset = false) (h : s.link.flags = allFlags) : s.attention = true := by
  rw [State.attention, live, h, allFlags_isEmpty]
  rfl

theorem State.restartEffect_of_due {s : State} (due : s.link.restartDue = true) :
    s.restartEffect = { s with link := { s.link with restartDue := false, flags := allFlags } } := if_pos due

/-- The effect itself, at a link r that has discarded its response since s. -/
theorem RestartedInto.restartEffect {s r : State} (within : OnlyLink s r) (live : s.part.inReset = false)
    (due : r.link.restartDue = true) (kept : r.link.conditions = s.link.conditions) (discarded : r.link.response = none) :
    RestartedInto r.link.state s r.restartEffect := by
  have only : OnlyLink s r.restartEffect := within.trans (.restartEffect r)
  have flags : r.restartEffect.link.flags = allFlags := by rw [State.restartEffect_of_due due]
  have attn : r.restartEffect.attention = true := State.attention_of_allFlags (by rw [only.part, live]) flags
  rw [State.restartEffect_of_due due] at only attn ⊢
  exact ⟨only, rfl, rfl, kept, rfl, discarded, attn⟩

/-! ### The two events -/

section
variable {s : State}

theorem exec_requestFrameStart_of_answered (live : s.part.inReset = false) (selected : s.link.selected = true)
    (answered : s.link.state = .answered) : exec .requestFrameStart s = .next s.shiftOut.beginFrame := by
  show execRequestFrameStart s = _
  simp [execRequestFrameStart, State.whenever, State.listens, State.live, State.clockByte, live, selected, answered]

/-- The mark of a frame is clocked: SDO still shifts a byte out, and of the link's other parts only the count of bytes moves. -/
theorem State.shiftOut_link_of_answered (answered : s.link.state = .answered) :
    s.shiftOut.link = { s.link with
      sdo := s.link.responseBytes.getD s.link.shifted 0xFF, shifted := saturate s.link.responseBytes.length s.link.shifted } := by
  simp [State.shiftOut, answered]

/-- The next request frame begins (R185, second event). -/
theorem RestartedInto.beginFrame (live : s.part.inReset = false) (answered : s.link.state = .answered)
    (due : s.link.restartDue = true) : RestartedInto .receiving s s.shiftOut.beginFrame := by
  have hl := State.shiftOut_link_of_answered answered
  exact .restartEffect ((OnlyLink.shiftOut s).trans (.withLink _ _)) live (by simp [hl, due]) (by simp [hl]) rfl

/-- CS_N rises on a response that has not been shifted out whole: RESTART still waits. -/
theorem exec_csNRise_of_unshifted {r : Response} (selected : s.link.selected = true) (answered : s.link.state = .answered)
    (response : s.link.response = some r) (partly : s.link.shifted < r.bytes.length) :
    exec .csNRise s = .next { s with link := { s.link with selected := false } } := by
  show execCsNRise s = _
  simp [execCsNRise, State.whenever, State.csRises, OrderLink.responseBytes, selected, answered, response, partly.not_ge]

/-- CS_N rises on a response that has been shifted out whole while RESTART waits. -/
theorem exec_csNRise_of_shifted {r : Response} (live : s.part.inReset = false) (selected : s.link.selected = true)
    (answered : s.link.state = .answered) (response : s.link.response = some r) (due : s.link.restartDue = true)
    (whole : r.bytes.length ≤ s.link.shifted) :
    exec .csNRise s = .next
      { s with link := { s.link with selected := false, state := .idle, response := none, shifted := 0 } }.restartEffect := by
  show execCsNRise s = _
  simp [execCsNRise, State.whenever, State.csRises, OrderLink.responseBytes, live, selected, answered, response, due, whole]

end

/-! ### The statement -/

/-- Settles O15: IDENTIFY PART and RESTART by the state in which their block works them, and both events of R185 by what RESTART's effect
does to the link. -/
theorem identifyPartAndRestartAnswer : Obligations.IdentifyPartAndRestartAnswer := by
  unfold Obligations.IdentifyPartAndRestartAnswer
  refine ⟨fun s h => ?identify, fun s h => ?restart, fun r s live selected answered response due =>
    ⟨?frameBegins, fun partly => ?partlyShifted, fun whole => ?shiftedOut⟩⟩
  case identify =>
    rw [OnlyAnswers, exec_identifyPart_of_reaches h, State.identity_eq, State.atWork_part]
  case restart =>
    obtain ⟨due, conditions, flags⟩ := (s.atWork .restart).restart_link
    exact ⟨_, exec_restart_of_reaches h, (OnlyLink.atWork _ s).trans (.restart _), State.answered_restart _, due,
      conditions.trans (State.atWork_conditions _ s), flags.trans (State.atWork_flags _ s)⟩
  case frameBegins =>
    exact ⟨_, exec_requestFrameStart_of_answered live selected answered, RestartedInto.beginFrame live answered due⟩
  case partlyShifted =>
    exact exec_csNRise_of_unshifted selected answered response partly
  case shiftedOut =>
    exact ⟨_, exec_csNRise_of_shifted live selected answered response due whole,
      RestartedInto.restartEffect (.withLink s _) live due rfl rfl⟩

end Sys2Proof.Machine
end
